-- ==== Sys2Proof/Word.lean ====
section
/-! DEFINITION. The word types of the block: bytes of the byte view, the 32-bit register word, the 64-bit seconds. -/

namespace Sys2Proof

/-- One byte of a step's code or of the byte view of a register (rule R52). -/
abbrev Byte := BitVec 8

/-- The `u32` of rule R12: one register word. -/
abbrev Word := BitVec 32

/-- The `u64` of rule R12: the seconds of the counter and of the active offset (rules R23, R26). -/
abbrev DWord := BitVec 64

end Sys2Proof
end

