-- ==== Sys2Proof/Config.lean ====
section
/-! DEFINITION. The constants of rule R10, the open parameters of rules R11, R40 and R76, and the free values. -/

namespace Sys2Proof

namespace Config

/-- `FRAC_BITS` (rule R10). -/
abbrev fracBits : Nat := 20

/-- `FRACTIONOF_ONENSEC` (rule R10): one nanosecond in increment units, 2^20. -/
abbrev fractionOfOneNsec : Nat := 1048576

/-- `NSEC_PER_SEC` (rule R10). -/
abbrev nsecPerSec : Nat := 1000000000

/-- `PULSES_PER_SECOND` (rule R10). -/
abbrev pulsesPerSecond : Nat := 128

/-- `COARSE_THRESHOLD` (rule R10): 0x3FFFFFFF. -/
abbrev coarseThreshold : Nat := 1073741823

/-- `MAX_ADJ_PPB` (rule R10): the trim the host advertises; the core does not clamp to it (rule R161 (d)). -/
abbrev maxAdjPpb : Nat := 999999999

/-- One second in increment units: the bound of `CTR_NSFX` (rule R24), `NSEC_PER_SEC * 2^20`. -/
abbrev nsfxPerSec : Nat := 1048576000000000

/-- The size of the block's offset space, 0x00..0x3F (rule R50). -/
abbrev blockSize : Nat := 64

/-- DESIGN CHOICE (log 7), safe: the environment's draws (`draw u32` of rule R14), a constant with no body. The n-th
draw of a run is `freeWord n`; no proof can see its value. -/
opaque freeWord : Nat → Word

/-- `CLK_PERIOD - 1` (rule R11: an integer in 1..4095), open. -/
opaque clkPeriodPred : Fin 4095

/-- The `PPS` member of `REQ_KIND` (rule R76, `KIND_PPS`), open; below 2^32 so that it has operand bytes (log 34). -/
opaque kindPps : Fin 4294967296

/-- `BASE` (rule R11): where the block stands on the host bus, open. -/
opaque base : Nat

/-- `N_CALLERS - 1` (rule R11: `N_CALLERS >= 1`), open. -/
opaque moreCallers : Nat

/-- `RST_CTR_SEC` (rule R40), open. -/
opaque rstCtrSec : DWord

/-- `RST_CTR_NSFX` (rule R40), open, in 0..NSEC_PER_SEC*2^20-1. -/
opaque rstCtrNsfx : Fin 1048576000000000

/-- `RST_INC` (rule R40), open. -/
opaque rstInc : Word

/-- `RST_OFF_NS` (rule R40), open. -/
opaque rstOffNs : Word

/-- `RST_OFF_SEC` (rule R40), open. -/
opaque rstOffSec : DWord

/-- `RST_INT_PEND` (rule R40), open. -/
opaque rstIntPend : Bool

end Config

/-- The open parameters of one machine (rules R11, R40, R76). `N_CALLERS` is the number of caller contexts of State.
DESIGN CHOICE (log 5), safe: State carries them, no step changes them, so a statement about every state holds for every
choice of them. -/
structure Params where
  /-- `CLK_PERIOD`: nanoseconds per tick, 1..4095 (rule R11). -/
  clkPeriod : Nat
  /-- `KIND_PPS`: the `PPS` member of `REQ_KIND` (rule R76). -/
  kindPps : Nat
  /-- `BASE`: the host address of offset 0 (rules R11, R51). -/
  base : Nat
  /-- `RST_CTR_SEC` (rule R40). -/
  rstCtrSec : DWord
  /-- `RST_CTR_NSFX` (rule R40). -/
  rstCtrNsfx : Nat
  /-- `RST_INC` (rule R40). -/
  rstInc : Word
  /-- `RST_OFF_NS` (rule R40). -/
  rstOffNs : Word
  /-- `RST_OFF_SEC` (rule R40). -/
  rstOffSec : DWord
  /-- `RST_INT_PEND` (rule R40). -/
  rstIntPend : Bool
deriving DecidableEq, Repr

/-- The parameters of the machine as the spec leaves them: every one open (log 5, log 6). -/
def Params.opened : Params where
  clkPeriod := Config.clkPeriodPred.val + 1
  kindPps := Config.kindPps.val
  base := Config.base
  rstCtrSec := Config.rstCtrSec
  rstCtrNsfx := Config.rstCtrNsfx.val
  rstInc := Config.rstInc
  rstOffNs := Config.rstOffNs
  rstOffSec := Config.rstOffSec
  rstIntPend := Config.rstIntPend

/-- The domains of rules R11 and R40: `CLK_PERIOD` in 1..4095 and `RST_CTR_NSFX` below one second. -/
def Params.Legal (p : Params) : Prop :=
  1 ≤ p.clkPeriod ∧ p.clkPeriod ≤ 4095 ∧ p.rstCtrNsfx < Config.nsfxPerSec

/-- `NOMINAL` (rule R11): `CLK_PERIOD * FRACTIONOF_ONENSEC`. -/
def Params.nominal (p : Params) : Nat := p.clkPeriod * Config.fractionOfOneNsec

end Sys2Proof
end

