-- ==== Sys2Proof/Syntax.lean ====
section
/-! DEFINITION. The syntax of the step keys: the registers, time values, and one constructor per row of the table. -/

namespace Sys2Proof

/-- A time value `TV` (rule R15): seconds and nanoseconds, integers as the spec's arithmetic takes them. -/
structure TV where
  sec : Int
  ns : Int
deriving DecidableEq, Repr

/-- The eleven registers of the block (rules R21, R72). -/
inductive Reg where
  | offsetNs
  | offsetSecLo
  | offsetSecHi
  | increment
  | curNs
  | curSecLo
  | curSecHi
  | intStatus
  | pulseOffset8k
  | correctionField0
  | correctionField1
deriving DecidableEq, Repr

/-- The steps of the opcode table, with the operands of rules R71, R74 and R75. A bus write carries the word `D`. The
signed operands `delta_ns : i64` and `ppb : i32` are two's complement words read as integers. -/
inductive Instr where
  /-- `RD_OFFSET_NS`, rule R102. -/
  | rdOffsetNs
  /-- `RD_OFFSET_SEC_LO`, rule R104. -/
  | rdOffsetSecLo
  /-- `RD_OFFSET_SEC_HI`, rule R106. -/
  | rdOffsetSecHi
  /-- `RD_INCREMENT`, rule R108. -/
  | rdIncrement
  /-- `RD_CUR_NS`, rule R110. -/
  | rdCurNs
  /-- `RD_CUR_SEC_LO`, rule R112. -/
  | rdCurSecLo
  /-- `RD_CUR_SEC_HI`, rule R114. -/
  | rdCurSecHi
  /-- `RD_INT_STATUS`, rule R116. -/
  | rdIntStatus
  /-- `RD_PULSE_OFFSET_8K`, rule R118. -/
  | rdPulseOffset8k
  /-- `RD_CORRECTION_FIELD_0`, rule R120. -/
  | rdCorrectionField0
  /-- `RD_CORRECTION_FIELD_1`, rule R122. -/
  | rdCorrectionField1
  /-- `WR_OFFSET_NS`, rule R103. -/
  | wrOffsetNs (d : Word)
  /-- `WR_OFFSET_SEC_LO`, rule R105. -/
  | wrOffsetSecLo (d : Word)
  /-- `WR_OFFSET_SEC_HI`, rule R107. -/
  | wrOffsetSecHi (d : Word)
  /-- `WR_INCREMENT`, rule R109. -/
  | wrIncrement (d : Word)
  /-- `WR_CUR_NS`, rule R111. -/
  | wrCurNs (d : Word)
  /-- `WR_CUR_SEC_LO`, rule R113. -/
  | wrCurSecLo (d : Word)
  /-- `WR_CUR_SEC_HI`, rule R115. -/
  | wrCurSecHi (d : Word)
  /-- `WR_INT_STATUS`, rule R117; by the handler with D = 1 it is `IH_ACK`, rule R194. -/
  | wrIntStatus (d : Word)
  /-- `WR_PULSE_OFFSET_8K`, rule R119. -/
  | wrPulseOffset8k (d : Word)
  /-- `WR_CORRECTION_FIELD_0`, rule R121. -/
  | wrCorrectionField0 (d : Word)
  /-- `WR_CORRECTION_FIELD_1`, rule R123. -/
  | wrCorrectionField1 (d : Word)
  /-- `GET_TIME`, rule R172. -/
  | getTime
  /-- `SET_TIME`, rule R173. -/
  | setTime (target : TV)
  /-- `ADJ_TIME`, rule R175. -/
  | adjTime (deltaNs : DWord)
  /-- `ADJ_FREQ`, rule R160. -/
  | adjFreq (ppb : Word)
  /-- `ENABLE`, rule R196; the request kind is a natural number (rule R76). -/
  | enable (req : Nat)
  /-- `TICK`, rule R130. -/
  | tick
  /-- `PULSE`, rule R190. -/
  | pulse
  /-- `IH_ENTRY`, rule R193. -/
  | ihEntry
  /-- `REGISTER`, rule R197. -/
  | register
  /-- `DEREGISTER`, rule R197. -/
  | deregister
  /-- `LOCK_ACQ`, rule R170. -/
  | lockAcq
  /-- `LOCK_REL`, rule R170. -/
  | lockRel
deriving DecidableEq, Repr

end Sys2Proof
end

