-- ==== Sys2Proof/WellFormed.lean ====
section
/-! DEFINITION. Well-formed instructions: the operand domains of rules R74 and R76. -/

namespace Sys2Proof

/-- The operand domain of `SET_TIME` (rules R74, R75): `target.sec` in 0..2^63-1, `target.ns` in 0..999999999. -/
def TV.inTargetRange (t : TV) : Bool :=
  decide (0 ≤ t.sec) && decide (t.sec < 9223372036854775808) && decide (0 ≤ t.ns)
    && decide (t.ns < (Config.nsecPerSec : Int))

/-- A request kind that has operand bytes: a natural number below 2^32 (rule R76, log 34). -/
def kindEncodable (req : Nat) : Bool := decide (req < 4294967296)

/-- An instruction whose operands lie in the domains the spec gives them. Words fill their domains (rules R71, R75). -/
def Instr.wellFormed : Instr → Bool
  | .rdOffsetNs | .rdOffsetSecLo | .rdOffsetSecHi | .rdIncrement | .rdCurNs | .rdCurSecLo | .rdCurSecHi
  | .rdIntStatus | .rdPulseOffset8k | .rdCorrectionField0 | .rdCorrectionField1 => true
  | .wrOffsetNs _ | .wrOffsetSecLo _ | .wrOffsetSecHi _ | .wrIncrement _ | .wrCurNs _ | .wrCurSecLo _
  | .wrCurSecHi _ | .wrIntStatus _ | .wrPulseOffset8k _ | .wrCorrectionField0 _ | .wrCorrectionField1 _ => true
  | .getTime => true
  | .setTime target => target.inTargetRange
  | .adjTime _ => true
  | .adjFreq _ => true
  | .enable req => kindEncodable req
  | .tick | .pulse | .ihEntry | .register | .deregister | .lockAcq | .lockRel => true

end Sys2Proof
end

