-- ==== Sys2Proof/Decode.lean ====
section
/-! DEFINITION. Decoding a step's code (a key byte and its operand bytes), the encoder, and the host's table word.
The keys are those of rules R70 to R79. The operand bytes behind the key are a DESIGN CHOICE (log 1), safe: the spec
gives the operands no bytes (rule R75). -/

namespace Sys2Proof

/-- Why a code selects nothing. -/
inductive DecodeError where
  /-- No key byte at all. -/
  | noKey
  /-- The code ends before the operand bytes of its key do. -/
  | truncated
  /-- A BUS key with `A[1:0] != 00` (rules R55, R73). -/
  | misaligned
  /-- A BUS key at an offset with no register (rule R73). -/
  | reservedOffset
  /-- A HOSTOP or STEP key outside the tables (rule R79). -/
  | reservedKey
deriving DecidableEq, Repr

/-- The first four bytes as a word, most significant byte first (rule R52), and the rest. -/
def takeWord : List Byte → Option (Word × List Byte)
  | b3 :: b2 :: b1 :: b0 :: rest => some (b3 ++ b2 ++ b1 ++ b0, rest)
  | _ => none

/-- The first eight bytes as a 64-bit word, most significant byte first, and the rest. -/
def takeDWord (bs : List Byte) : Option (DWord × List Byte) :=
  match takeWord bs with
  | none => none
  | some (hi, bs1) =>
    match takeWord bs1 with
    | none => none
    | some (lo, bs2) => some (hi ++ lo, bs2)

/-- The four bytes of a word in the block's byte order: bits 31:24 at the lowest address (rule R52). -/
def wordBytes (w : Word) : List Byte :=
  [w.extractLsb' 24 8, w.extractLsb' 16 8, w.extractLsb' 8 8, w.extractLsb' 0 8]

/-- The eight bytes of a 64-bit word, most significant first. -/
def dwordBytes (w : DWord) : List Byte :=
  wordBytes (w.extractLsb' 32 32) ++ wordBytes (w.extractLsb' 0 32)

/-- The register offsets (rule R72). -/
def Reg.offset : Reg → BitVec 6
  | .offsetNs => 0x00
  | .offsetSecLo => 0x08
  | .offsetSecHi => 0x0C
  | .increment => 0x10
  | .curNs => 0x14
  | .curSecLo => 0x18
  | .curSecHi => 0x1C
  | .intStatus => 0x20
  | .pulseOffset8k => 0x24
  | .correctionField0 => 0x2C
  | .correctionField1 => 0x30

/-- The register at an offset (rule R72), or none where the block has no register (rule R73). -/
def Reg.ofOffset (a : BitVec 6) : Option Reg :=
  match a.toNat with
  | 0x00 => some .offsetNs
  | 0x08 => some .offsetSecLo
  | 0x0C => some .offsetSecHi
  | 0x10 => some .increment
  | 0x14 => some .curNs
  | 0x18 => some .curSecLo
  | 0x1C => some .curSecHi
  | 0x20 => some .intStatus
  | 0x24 => some .pulseOffset8k
  | 0x2C => some .correctionField0
  | 0x30 => some .correctionField1
  | _ => none

/-- The read of a register (rules R72, R100). -/
def Reg.readInstr : Reg → Instr
  | .offsetNs => .rdOffsetNs
  | .offsetSecLo => .rdOffsetSecLo
  | .offsetSecHi => .rdOffsetSecHi
  | .increment => .rdIncrement
  | .curNs => .rdCurNs
  | .curSecLo => .rdCurSecLo
  | .curSecHi => .rdCurSecHi
  | .intStatus => .rdIntStatus
  | .pulseOffset8k => .rdPulseOffset8k
  | .correctionField0 => .rdCorrectionField0
  | .correctionField1 => .rdCorrectionField1

/-- The write of a register (rules R72, R101). -/
def Reg.writeInstr : Reg → Word → Instr
  | .offsetNs => .wrOffsetNs
  | .offsetSecLo => .wrOffsetSecLo
  | .offsetSecHi => .wrOffsetSecHi
  | .increment => .wrIncrement
  | .curNs => .wrCurNs
  | .curSecLo => .wrCurSecLo
  | .curSecHi => .wrCurSecHi
  | .intStatus => .wrIntStatus
  | .pulseOffset8k => .wrPulseOffset8k
  | .correctionField0 => .wrCorrectionField0
  | .correctionField1 => .wrCorrectionField1

/-- The BUS format (rules R71 to R73): alignment first, then the register map, in the order of rule R78. -/
def decodeBus (w : Bool) (a : BitVec 6) (ops : List Byte) : Except DecodeError (Instr × List Byte) :=
  if a.extractLsb' 0 2 ≠ 0 then .error .misaligned
  else
    match Reg.ofOffset a with
    | none => .error .reservedOffset
    | some r =>
      if w then
        match takeWord ops with
        | none => .error .truncated
        | some (d, rest) => .ok (r.writeInstr d, rest)
      else .ok (r.readInstr, ops)

/-- The HOSTOP format (rule R74). The seconds of `target` are read as a signed 64-bit integer, its nanoseconds as an
unsigned word (log 1). -/
def decodeHostOp (op : BitVec 3) (ops : List Byte) : Except DecodeError (Instr × List Byte) :=
  match op.toNat with
  | 0 => .ok (.getTime, ops)
  | 1 =>
    match takeDWord ops with
    | none => .error .truncated
    | some (sec, ops1) =>
      match takeWord ops1 with
      | none => .error .truncated
      | some (ns, rest) => .ok (.setTime ⟨sec.toInt, (ns.toNat : Int)⟩, rest)
  | 2 =>
    match takeDWord ops with
    | none => .error .truncated
    | some (d, rest) => .ok (.adjTime d, rest)
  | 3 =>
    match takeWord ops with
    | none => .error .truncated
    | some (ppb, rest) => .ok (.adjFreq ppb, rest)
  | 4 =>
    match takeWord ops with
    | none => .error .truncated
    | some (k, rest) => .ok (.enable k.toNat, rest)
  | _ => .error .reservedKey

/-- The STEP format (rule R77). -/
def decodeStep (ev : BitVec 3) (ops : List Byte) : Except DecodeError (Instr × List Byte) :=
  match ev.toNat with
  | 0 => .ok (.tick, ops)
  | 1 => .ok (.pulse, ops)
  | 2 => .ok (.ihEntry, ops)
  | 3 => .ok (.register, ops)
  | 4 => .ok (.deregister, ops)
  | 5 => .ok (.lockAcq, ops)
  | 6 => .ok (.lockRel, ops)
  | _ => .error .reservedKey

/-- Decoding (rule R78), total on any bytes: the instruction its first bytes hold and the bytes behind it, or the name
of what is wrong. -/
def decode : List Byte → Except DecodeError (Instr × List Byte)
  | [] => .error .noKey
  | k :: ops =>
    if k.getLsbD 7 = false then decodeBus (k.getLsbD 6) (k.extractLsb' 0 6) ops
    else if k.extractLsb' 3 3 ≠ 0 then .error .reservedKey
    else if k.getLsbD 6 = false then decodeHostOp (k.extractLsb' 0 3) ops
    else decodeStep (k.extractLsb' 0 3) ops

/-- The step key of an instruction (rules R72, R74, R77). -/
def Instr.key : Instr → Byte
  | .rdOffsetNs => 0x00
  | .rdOffsetSecLo => 0x08
  | .rdOffsetSecHi => 0x0C
  | .rdIncrement => 0x10
  | .rdCurNs => 0x14
  | .rdCurSecLo => 0x18
  | .rdCurSecHi => 0x1C
  | .rdIntStatus => 0x20
  | .rdPulseOffset8k => 0x24
  | .rdCorrectionField0 => 0x2C
  | .rdCorrectionField1 => 0x30
  | .wrOffsetNs _ => 0x40
  | .wrOffsetSecLo _ => 0x48
  | .wrOffsetSecHi _ => 0x4C
  | .wrIncrement _ => 0x50
  | .wrCurNs _ => 0x54
  | .wrCurSecLo _ => 0x58
  | .wrCurSecHi _ => 0x5C
  | .wrIntStatus _ => 0x60
  | .wrPulseOffset8k _ => 0x64
  | .wrCorrectionField0 _ => 0x6C
  | .wrCorrectionField1 _ => 0x70
  | .getTime => 0x80
  | .setTime _ => 0x81
  | .adjTime _ => 0x82
  | .adjFreq _ => 0x83
  | .enable _ => 0x84
  | .tick => 0xC0
  | .pulse => 0xC1
  | .ihEntry => 0xC2
  | .register => 0xC3
  | .deregister => 0xC4
  | .lockAcq => 0xC5
  | .lockRel => 0xC6

/-- The operand bytes behind the key (log 1). -/
def Instr.operandBytes : Instr → List Byte
  | .rdOffsetNs | .rdOffsetSecLo | .rdOffsetSecHi | .rdIncrement | .rdCurNs | .rdCurSecLo | .rdCurSecHi
  | .rdIntStatus | .rdPulseOffset8k | .rdCorrectionField0 | .rdCorrectionField1 => []
  | .wrOffsetNs d | .wrOffsetSecLo d | .wrOffsetSecHi d | .wrIncrement d | .wrCurNs d | .wrCurSecLo d
  | .wrCurSecHi d | .wrIntStatus d | .wrPulseOffset8k d | .wrCorrectionField0 d | .wrCorrectionField1 d =>
    wordBytes d
  | .getTime => []
  | .setTime t => dwordBytes (BitVec.ofInt 64 t.sec) ++ wordBytes (BitVec.ofInt 32 t.ns)
  | .adjTime d => dwordBytes d
  | .adjFreq ppb => wordBytes ppb
  | .enable req => wordBytes (BitVec.ofNat 32 req)
  | .tick | .pulse | .ihEntry | .register | .deregister | .lockAcq | .lockRel => []

/-- The code of an instruction: its key, then its operand bytes. -/
def encode (i : Instr) : List Byte := i.key :: i.operandBytes

/-- The length in bytes of the longest code, that of `SET_TIME`: a key, eight bytes and four bytes. -/
def maxCodeBytes : Nat := 13

/-- The bytes of a table word: byte k is bits 8k+7..8k, and every bit from `nbits` up is 0. -/
def tableBytes (nbits w : Nat) : List Byte :=
  (List.range maxCodeBytes).map fun k => BitVec.ofNat 8 (w % 2 ^ nbits / 2 ^ (8 * k))

/-- The instruction the decoder reads from a word of the opcode table (host interface). -/
def decodeTableWord (nbits w : Nat) : Option Instr :=
  match decode (tableBytes nbits w) with
  | .ok (i, _) => some i
  | .error _ => none

end Sys2Proof
end

