-- ==== Sys2Proof/Machine/State.lean ====
section
/-! DEFINITION. State: the register block, the core, the block's edge, the callers' contexts, the schedule; the
reasons a step can stop; the launch state and reset. -/

namespace Sys2Proof.Machine

/-- The agents (rule R9). Caller `Ci` is `caller (i - 1)`. -/
inductive Agent where
  | tb
  | ps
  | caller (k : Nat)
  | ih
  | host
deriving DecidableEq, Repr

/-- The handler's context `ih_state` (rule R38). -/
inductive IhState where
  | idle
  | entered
deriving DecidableEq, Repr

/-- A PPS event carries no data (rule R195). -/
inductive PpsEvent where
  | pps
deriving DecidableEq, Repr

/-- What a host operation returns (rule R211). -/
inductive Result where
  | ok
  | okTime (tv : TV)
  | unsupported
deriving DecidableEq, Repr

/-- The result codes of rule R211. -/
def Result.code : Result → Nat
  | .ok => 0
  | .okTime _ => 0
  | .unsupported => 1

/-- The operation in progress between two steps (`op` of rule R37). `ADJ_FREQ` and `ENABLE` are one step each (rules
R160, R196), so they are never in progress between steps. -/
inductive Op where
  | idle
  | getTime
  | setTime (target : TV)
  | adjTime (deltaNs : DWord)
deriving DecidableEq, Repr

/-- The context of one caller (rule R37). `holds_lock` equals `LOCK = Ci` and is read from `lock`. -/
structure Ctx where
  op : Op
  /-- The index of the operation's next step. -/
  sp : Nat
  rNs : Word
  rSec : Word
  tv : TV
  /-- The value the last operation returned; none before any has returned. -/
  result : Option Result
  /-- The model's own (log 11): the value of the caller's last bus read (rule R71). -/
  rdata : Word
deriving DecidableEq, Repr

/-- A caller's context at attach (rule R41: `op = idle`). The other values are DESIGN CHOICE (log 9), unsafe. -/
def Ctx.idle : Ctx where
  op := .idle
  sp := 0
  rNs := 0
  rSec := 0
  tv := ⟨0, 0⟩
  result := none
  rdata := 0

/-- A transaction of the host bus (rule R14, `MemRead` and `MemWrite`): a host address and a width in bytes, or the
bytes written from the lowest address up. -/
inductive HostAccess where
  | read (addr : Nat) (width : Nat)
  | write (addr : Nat) (bytes : List Byte)
deriving DecidableEq, Repr

/-- One entry of the schedule (rule R61, log 2): which agent moves next, and with what. -/
inductive Entry where
  /-- The agent issues the step or starts the operation with this code. -/
  | issue (who : Agent) (code : List Byte)
  /-- The agent makes this host-bus transaction. -/
  | bus (who : Agent) (acc : HostAccess)
  /-- Caller `k` takes the next step of its operation (rule R9, log 4). -/
  | go (k : Nat)
  /-- Detach (rule R42, log 17). -/
  | detach
  /-- Power cycle (rule R43, log 18). -/
  | powerCycle
deriving DecidableEq, Repr

/-- The machine (rule R20). -/
structure State where
  /-- `CTR_SEC` (rule R23). -/
  ctrSec : DWord
  /-- `CTR_NSFX` (rule R24). -/
  ctrNsfx : Nat
  /-- `INC` (rule R25). -/
  inc : Word
  /-- `OFF_NS` (rule R26). -/
  offNs : Word
  /-- `OFF_SEC` (rule R26). -/
  offSec : DWord
  /-- `STG_SEC_LO` (rule R27). -/
  stgSecLo : Word
  /-- `STG_SEC_HI` (rule R27). -/
  stgSecHi : Word
  /-- `INT_PEND` (rule R28). -/
  intPend : Bool
  /-- `PULSE_COUNT` (rule R30). -/
  pulseCount : Nat
  /-- `PPS_ENABLED` (rule R31). -/
  ppsEnabled : Bool
  /-- `LOCK` (rule R32): free, or held by a caller. -/
  lock : Option Nat
  /-- `REGISTERED` (rule R34). -/
  registered : Bool
  /-- `EVENTS` (rule R35), oldest first. -/
  events : List PpsEvent
  /-- `REFUSED` (rule R36). -/
  refused : Bool
  /-- `ih_state` (rule R38). -/
  ihState : IhState
  /-- Whether the core is attached (rules R42, R193, R197; log 17). -/
  attached : Bool
  /-- The callers' contexts (rule R37); their number is `N_CALLERS` (rule R11). -/
  callers : List Ctx
  /-- The open parameters (rules R11, R40), which no step changes (log 5). -/
  params : Params
  /-- The model's own (log 7): how many draws have been taken. -/
  draws : Nat
  /-- The model's own (log 2): the steps still to come, first one first (rule R61). -/
  schedule : List Entry
  /-- The model's own (log 10): the agent whose step is run. -/
  actor : Agent
deriving DecidableEq, Repr

/-- Why the machine stops. The block itself has no fault (rule R210): these end a run of the model. -/
inductive Fault where
  /-- Raised by the fetch when the schedule has no more steps and no caller and no handler is part-way: the end of a run
  (rule R253; after detach, rule R42; log 15). Safe. -/
  | runEnded
  /-- Raised by the fetch when the schedule has no more steps while an operation is in progress or the handler is entered:
  a schedule cut short, no end of a run in the sense of rule R253 (log 15). Safe. -/
  | scheduleCut
  /-- Raised by the fetch when an agent other than `TB` and `PS` is scheduled after detach with a step that it has while
  attached: it has none now (rule R42; log 17, log 39). Safe. -/
  | detached
deriving DecidableEq, Repr

/-- Why a step has no meaning (rules R17, R212). Every refusal is safe: it errs toward unprovable. -/
inductive Refusal where
  /-- An instruction whose meaning is not written yet; raised by `exec` alone. Safe. -/
  | notModelled (mnemonic : String)
  /-- Rule R212 `reserved_offset`: a BUS key at a misaligned offset or at one with no register (rule R124; log 13); raised
  by the fetch. Safe. -/
  | reservedOffset
  /-- Rule R212 `bad_width_or_alignment`: a host-bus access of another width than 32 bits (rule R54; log 38); raised by
  the fetch. Safe. -/
  | badWidthOrAlignment
  /-- Rule R212 `write_to_read_only` (rules R111, R113, R115); raised by the three writes. Safe. -/
  | writeToReadOnly
  /-- Rule R212 `write_to_unused` (rules R119, R121, R123); raised by the three writes. Safe. -/
  | writeToUnused
  /-- Rule R212 `reserved_key` (rule R79); raised by the fetch. Safe. -/
  | reservedKey
  /-- Rule R212 `bad_operand` (rule R75); raised by `SET_TIME`. Safe. -/
  | badOperand
  /-- The code in the schedule ends before its operands do (log 14); raised by the fetch. Safe. -/
  | truncatedCode
  /-- A host address outside `BASE .. BASE + 0x3F` (rule R51, log 14); raised by the fetch. Safe. -/
  | outsideBlock
  /-- The scheduled agent has no such step, or there is no such caller (rule R9, log 14); raised by the fetch and by
  the callers' steps. Safe. -/
  | wrongAgent
  /-- A caller with an operation in progress is scheduled with something other than its next step (rules R37, R62), or
  `LOCK_ACQ` or `LOCK_REL` is issued where no guarded operation has it next (rules R77, R170; log 14, log 16); raised by
  the fetch, by the host operations and by the guard steps. Safe. -/
  | outOfSequence
  /-- `LOCK_REL` by a caller that does not hold the guard (rule R170, log 14); raised by `LOCK_REL`. Safe. -/
  | guardNotHeld
deriving DecidableEq, Repr

/-- The launch state of a machine with these parameters and `more + 1` callers (rules R40, R41, R240). -/
def State.launch (p : Params) (more : Nat) : State where
  ctrSec := p.rstCtrSec
  ctrNsfx := p.rstCtrNsfx
  inc := p.rstInc
  offNs := p.rstOffNs
  offSec := p.rstOffSec
  stgSecLo := p.rstOffSec.extractLsb' 0 32
  stgSecHi := p.rstOffSec.extractLsb' 32 32
  intPend := p.rstIntPend
  pulseCount := 0
  ppsEnabled := false
  lock := none
  registered := false
  events := []
  refused := false
  ihState := .idle
  attached := true
  callers := Ctx.idle :: List.replicate more Ctx.idle
  params := p
  draws := 0
  schedule := []
  actor := .caller 0

/-- The machine right after reset and attach, every parameter open (rules R40, R41, R240). -/
def State.reset : State := State.launch Params.opened Config.moreCallers

end Sys2Proof.Machine
end

