-- ==== Sys2Proof/Machine/Flags.lean ====
section
/-! DEFINITION. The block's two flags (rule R33), `INT_PEND` and `PPS_ENABLED`, the interrupt line, and the INT_STATUS
word. -/

namespace Sys2Proof.Machine

/-- The interrupt line (rule R192): `IRQ = INT_PEND`. -/
def State.irq (s : State) : Bool := s.intPend

/-- `INT_PEND <- 1` (rule R190). -/
def State.raisePulse (s : State) : State := { s with intPend := true }

/-- The write-1-to-clear of INT_STATUS bit 0 (rule R117); bits 31:1 are ignored. -/
def State.clearPend (d : Word) (s : State) : State := { s with intPend := s.intPend && !(d.getLsbD 0) }

/-- The INT_STATUS word (rule R116): bit 0 is `INT_PEND`, bits 31:1 are those of the draw. -/
def intStatusWord (draw : Word) (pend : Bool) : Word := draw.extractLsb' 1 31 ++ BitVec.ofBool pend

/-- `PPS_ENABLED <- true` if the request is of the `PPS` kind (rule R196); no request clears it. -/
def State.enablePps (req : Nat) (s : State) : State :=
  { s with ppsEnabled := s.ppsEnabled || req == s.params.kindPps }

end Sys2Proof.Machine
end

