-- ==== Sys2Proof/Machine/Operands.lean ====
section
/-! DEFINITION. Operand arithmetic: time values, `low32`, the increments of the two trims, the words of the operand
forms, and the next step of an operation's sequence. -/

namespace Sys2Proof.Machine

/-- `tv_norm` (rule R16): floor division and its remainder. -/
def tvNorm (t : Int) : TV := ⟨t / (Config.nsecPerSec : Int), t % (Config.nsecPerSec : Int)⟩

/-- `tv_total` (rule R16). -/
def tvTotal (a : TV) : Int := a.sec * (Config.nsecPerSec : Int) + a.ns

/-- `tv_add` (rule R16). -/
def tvAdd (a : TV) (d : Int) : TV := tvNorm (tvTotal a + d)

/-- `tv_sub` (rule R16). -/
def tvSub (a b : TV) : TV := tvNorm (tvTotal a - tvTotal b)

/-- `low32` (rule R13): `x mod 2^32`, the low 32 bits of the two's complement form. -/
def low32 (x : Int) : Word := BitVec.ofInt 32 x

/-- The time value of a pair of words read, seconds zero-extended (rules R136, R137). -/
def tvOfWords (sec ns : Word) : TV := ⟨(sec.toNat : Int), (ns.toNat : Int)⟩

/-- `delta` of `ADJ_FREQ` (rule R160): `floor(NOMINAL * |ppb| / NSEC_PER_SEC)`. -/
def freqDelta (nominal : Nat) (ppb : Int) : Nat := nominal * ppb.natAbs / Config.nsecPerSec

/-- The increment of `ADJ_FREQ` (rule R160), an integer. -/
def freqIncrement (nominal : Nat) (ppb : Int) : Int :=
  if ppb < 0 then (nominal : Int) - (freqDelta nominal ppb : Int)
  else (nominal : Int) + (freqDelta nominal ppb : Int)

/-- The increment of the fine path of `ADJ_TIME` (rule R177), an integer. -/
def fineIncrement (nominal : Nat) (delta : Int) : Int :=
  if delta < 0 then (nominal : Int) - (delta.natAbs : Int) else (nominal : Int) + (delta.natAbs : Int)

/-- Whether `ADJ_TIME` takes the coarse path (rule R175): `|delta_ns| > 0x3FFFFFFF`. -/
def isCoarse (delta : Int) : Bool := decide (Config.coarseThreshold < delta.natAbs)

/-- The offset `SET_TIME` writes (rule R173): `target - raw`, clamped to (0, 0) when its seconds are not positive. -/
def setTimeDelta (target raw : TV) : TV :=
  if (tvSub target raw).sec ≤ 0 then ⟨0, 0⟩ else tvSub target raw

/-- `OFF_SEC[31:0]`, the active word of OFFSET_SEC_LO. -/
def State.offSecLo (s : State) : Word := s.offSec.extractLsb' 0 32

/-- `OFF_SEC[63:32]`, the active word of OFFSET_SEC_HI. -/
def State.offSecHi (s : State) : Word := s.offSec.extractLsb' 32 32

/-- Whether the composition is defined (rule R133): `OFF_NS < NSEC_PER_SEC`. -/
def State.curDefined (s : State) : Bool := decide (s.offNs.toNat < Config.nsecPerSec)

/-- `n` of rule R132: the counter's whole nanoseconds plus the offset's. -/
def State.nsSum (s : State) : Nat := s.ctrNsfx / Config.fractionOfOneNsec + s.offNs.toNat

/-- `c` of rule R132: the carry of the composition into the seconds. -/
def State.nsCarry (s : State) : Nat := if Config.nsecPerSec ≤ s.nsSum then 1 else 0

/-- `CUR(s).ns` (rule R132). -/
def State.curNs (s : State) : Nat := s.nsSum - s.nsCarry * Config.nsecPerSec

/-- `CUR(s).sec` (rule R132): the sum modulo 2^64. -/
def State.curSec (s : State) : DWord := s.ctrSec + s.offSec + BitVec.ofNat 64 s.nsCarry

/-- Whether caller `k` holds the guard (`holds_lock` of rule R37). -/
def State.holdsLock (s : State) (k : Nat) : Bool := s.lock == some k

/-- The step at `sp` of the operation in progress, as the instruction it is (rules R172, R173, R175 to R177; rule R81);
none when no operation is in progress or its sequence has no such step. -/
def Ctx.nextInstr (p : Params) (c : Ctx) : Option Instr :=
  match c.op with
  | .idle => none
  | .getTime =>
    match c.sp with
    | 0 => some .lockAcq
    | 1 => some .rdCurNs
    | 2 => some .rdCurSecLo
    | 3 => some .lockRel
    | _ => none
  | .setTime _ =>
    match c.sp with
    | 0 => some .lockAcq
    | 1 => some (.wrOffsetSecHi 0)
    | 2 => some (.wrOffsetSecLo 0)
    | 3 => some (.wrOffsetNs 0)
    | 4 => some .rdCurNs
    | 5 => some .rdCurSecLo
    | 6 => some (.wrOffsetSecHi 0)
    | 7 => some (.wrOffsetSecLo (low32 c.tv.sec))
    | 8 => some (.wrOffsetNs (low32 c.tv.ns))
    | 9 => some .lockRel
    | _ => none
  | .adjTime d =>
    if isCoarse d.toInt then
      match c.sp with
      | 0 => some .lockAcq
      | 1 => some .rdOffsetNs
      | 2 => some .rdOffsetSecLo
      | 3 => some (.wrOffsetSecHi 0)
      | 4 => some (.wrOffsetSecLo (low32 c.tv.sec))
      | 5 => some (.wrOffsetNs (low32 c.tv.ns))
      | 6 => some .lockRel
      | _ => none
    else
      match c.sp with
      | 0 => some .lockAcq
      | 1 => some (.wrIncrement (low32 (fineIncrement p.nominal d.toInt)))
      | 2 => some .lockRel
      | _ => none

end Sys2Proof.Machine
end

