-- ==== Sys2Proof/Machine/Ops.lean ====
section
/-! DEFINITION. The named operations: register reads and writes, the caller's context after a step, the guard, the host
operations' start and return, the handler's entry and acknowledgment, detach, power cycle, the refusal mark. The block
takes no exceptions (rule R210); the handler's entry and acknowledgment (rules R193, R194) stand in their place. -/

namespace Sys2Proof.Machine

/-! ### The caller's context -/

/-- `return r` (rules R14, R37): the operation ends with result `r`. That `sp` is 0 after it is a DESIGN CHOICE (log 37):
the rule gives an idle caller no `sp`. -/
def Ctx.ret (r : Result) (c : Ctx) : Ctx := { c with op := .idle, sp := 0, result := some r }

/-- The context after the step at `sp`, with the value `v` it read, and the local computation behind it (rules R172,
R173, R175, R176, R177). -/
def Ctx.advance (v : Word) (c : Ctx) : Ctx :=
  match c.op with
  | .idle => c
  | .getTime =>
    match c.sp with
    | 1 => { c with rNs := v, sp := 2 }
    | 2 => { c with rSec := v, tv := tvOfWords v c.rNs, sp := 3 }
    | 3 => c.ret (.okTime c.tv)
    | n => { c with sp := n + 1 }
  | .setTime target =>
    match c.sp with
    | 4 => { c with rNs := v, sp := 5 }
    | 5 => { c with rSec := v, tv := setTimeDelta target (tvOfWords v c.rNs), sp := 6 }
    | 9 => c.ret .ok
    | n => { c with sp := n + 1 }
  | .adjTime d =>
    if isCoarse d.toInt then
      match c.sp with
      | 1 => { c with rNs := v, sp := 2 }
      | 2 => { c with rSec := v, tv := tvAdd (tvOfWords v c.rNs) d.toInt, sp := 3 }
      | 6 => c.ret .ok
      | n => { c with sp := n + 1 }
    else
      match c.sp with
      | 2 => c.ret .ok
      | n => { c with sp := n + 1 }

/-- The context after the caller has taken the step `i`: it advances if `i` is the step its sequence lists, and a direct
access leaves the operation's part of it alone (rule R37). -/
def Ctx.after (p : Params) (i : Instr) (v : Word) (c : Ctx) : Ctx :=
  if c.nextInstr p = some i then c.advance v else c

/-- The context after a bus read: the value reaches the caller (rule R71). -/
def Ctx.afterRead (p : Params) (i : Instr) (v : Word) (c : Ctx) : Ctx := { c.after p i v with rdata := v }

/-- The bytes that the host bus returns for the caller's last read at `BASE + A`, those of `BASE + A` to `BASE + A + 3` in
this order (rules R52, R53; the word itself is log 11's `rdata`). -/
def Ctx.busBytes (c : Ctx) : List Byte := wordBytes c.rdata

/-- A change of the acting caller's context; an agent that is no caller has none. -/
def State.onActor (f : Ctx → Ctx) (s : State) : State :=
  match s.actor with
  | .caller k => { s with callers := s.callers.modify k f }
  | .tb | .ps | .ih | .host => s

/-- The acting caller and its context, if the acting agent is a caller of this machine. -/
def State.actingCaller (s : State) : Option (Nat × Ctx) :=
  match s.actor with
  | .caller k =>
    match s.callers[k]? with
    | some c => some (k, c)
    | none => none
  | .tb | .ps | .ih | .host => none

/-! ### Register reads (rule R100) -/

/-- The draw a step takes (rule R14): a free value. -/
def State.draw (s : State) : Word := Config.freeWord s.draws

/-- Whether the read of a register draws (rules R104, R106, R108, R110, R112, R114, R116, R118, R120, R122). -/
def State.regDraws (r : Reg) (s : State) : Bool :=
  match r with
  | .offsetNs => false
  | .offsetSecLo => s.stgSecLo != s.offSecLo
  | .offsetSecHi => s.stgSecHi != s.offSecHi
  | .increment => true
  | .curNs => !s.curDefined
  | .curSecLo => !s.curDefined
  | .curSecHi => !s.curDefined
  | .intStatus => true
  | .pulseOffset8k => true
  | .correctionField0 => true
  | .correctionField1 => true

/-- One of two words, by a draw (rules R104, R106; log 8). -/
def drawOneOf (draw staged active : Word) : Word := if draw.getLsbD 0 then staged else active

/-- The value of a register at a read (rule R100), by its own rule: R102, R104, R106, R108, R110, R112, R114, R116, R118,
R120, R122. -/
def State.regValue (r : Reg) (s : State) : Word :=
  match r with
  | .offsetNs => s.offNs
  | .offsetSecLo => if s.stgSecLo = s.offSecLo then s.offSecLo else drawOneOf s.draw s.stgSecLo s.offSecLo
  | .offsetSecHi => if s.stgSecHi = s.offSecHi then s.offSecHi else drawOneOf s.draw s.stgSecHi s.offSecHi
  | .increment => s.draw
  | .curNs => if s.curDefined then BitVec.ofNat 32 s.curNs else s.draw
  | .curSecLo => if s.curDefined then s.curSec.extractLsb' 0 32 else s.draw
  | .curSecHi => if s.curDefined then s.curSec.extractLsb' 32 32 else s.draw
  | .intStatus => intStatusWord s.draw s.intPend
  | .pulseOffset8k => s.draw
  | .correctionField0 => s.draw
  | .correctionField1 => s.draw

/-- Counts a draw as taken. -/
def State.takeDraw (b : Bool) (s : State) : State := { s with draws := s.draws + b.toNat }

/-- `RegRead` (rule R100): the value reaches the acting caller; the block's state is unchanged (rule R57). -/
def State.busRead (r : Reg) (s : State) : State :=
  (s.takeDraw (s.regDraws r)).onActor (Ctx.afterRead s.params r.readInstr (s.regValue r))

/-! ### Register writes (rule R101) -/

/-- The acting caller has made the write `i`. -/
def State.wrote (i : Instr) (s : State) : State := s.onActor (Ctx.after s.params i 0)

/-- The offset commit (rule R103): both words of the offset at once, the staged seconds kept. -/
def State.commitOffset (d : Word) (s : State) : State :=
  { s with offNs := d, offSec := s.stgSecHi ++ s.stgSecLo }

/-- `STG_SEC_LO <- D` (rule R105). -/
def State.stageSecLo (d : Word) (s : State) : State := { s with stgSecLo := d }

/-- `STG_SEC_HI <- D` (rule R107). -/
def State.stageSecHi (d : Word) (s : State) : State := { s with stgSecHi := d }

/-- `INC <- D` (rule R109). -/
def State.writeInc (d : Word) (s : State) : State := { s with inc := d }

/-! ### The counter -/

/-- The tick (rule R130): the counter advances by `INC` and carries one second at 10^9 ns. -/
def State.tickCounter (s : State) : State :=
  if Config.nsfxPerSec ≤ s.ctrNsfx + s.inc.toNat then
    { s with ctrNsfx := s.ctrNsfx + s.inc.toNat - Config.nsfxPerSec, ctrSec := s.ctrSec + 1 }
  else { s with ctrNsfx := s.ctrNsfx + s.inc.toNat }

/-! ### The guard (rule R170) -/

/-- `LOCK_ACQ` by caller `k`: takes the free guard and goes on; while the guard is held it holds (log 3). -/
def State.acquire (k : Nat) (s : State) : State :=
  match s.lock with
  | none => { s with lock := some k, callers := s.callers.modify k (Ctx.after s.params .lockAcq 0) }
  | some _ => s

/-- `LOCK_REL` by caller `k`, the holder. -/
def State.release (k : Nat) (s : State) : State :=
  { s with lock := none, callers := s.callers.modify k (Ctx.after s.params .lockRel 0) }

/-- The guard step `i` by the acting caller, whose operation must have it next (rules R77, R170; log 16). -/
def State.guardStep (s : State) (i : Instr) (f : Nat → Host.Outcome State Fault Refusal) :
    Host.Outcome State Fault Refusal :=
  match s.actingCaller with
  | none => .refused .wrongAgent
  | some (k, c) => if c.nextInstr s.params = some i then f k else .refused .outOfSequence

/-! ### Host operations (rule R37) -/

/-- A guarded operation starts at `sp = 0` and takes its first step, `LOCK_ACQ` (rules R171, R172, R173, R175; log 4). -/
def State.startGuarded (k : Nat) (op : Op) (s : State) : State :=
  State.acquire k { s with callers := s.callers.modify k (fun c => { c with op := op, sp := 0 }) }

/-- The operation of caller `k` returns `r`. -/
def State.returnTo (k : Nat) (r : Result) (s : State) : State :=
  { s with callers := s.callers.modify k (Ctx.ret r) }

/-- A host operation is started by a caller that is idle (rule R37). -/
def State.hostOp (s : State) (f : Nat → State) : Host.Outcome State Fault Refusal :=
  match s.actingCaller with
  | none => .refused .wrongAgent
  | some (k, c) => if c.op = .idle then .next (f k) else .refused .outOfSequence

/-! ### The handler -/

/-- Whether `IH_ENTRY` is enabled (rule R193). -/
def State.entryEnabled (s : State) : Bool := s.irq && s.ihState == .idle && s.attached

/-- Whether the handler emits a PPS event when the count wraps (rule R193). -/
def State.emitsPps (s : State) : Bool := s.ppsEnabled && s.registered

/-- The handler's entry (rule R193): count, wrap at 128, emit, enter. -/
def State.enterHandler (s : State) : State :=
  if Config.pulsesPerSecond ≤ s.pulseCount + 1 then
    { s with
      pulseCount := 0
      events := if s.emitsPps then s.events ++ [.pps] else s.events
      ihState := .entered }
  else { s with pulseCount := s.pulseCount + 1, ihState := .entered }

/-- The handler's acknowledgment (rule R194), which it has only after its entry; otherwise it holds (log 3). -/
def State.ackHandler (d : Word) (s : State) : State :=
  match s.ihState with
  | .entered => { s.clearPend d with ihState := .idle }
  | .idle => s

/-! ### The edge -/

/-- Detach (rules R42, R241): deregistered, then gone (log 17). That it may come at any entry, inside an operation or the
handler too, and leaves every other element as it was is a DESIGN CHOICE (log 36): the spec says nothing of the state
after detach (rule R253). -/
def State.detach (s : State) : State := { s with registered := false, attached := false }

/-- Power cycle (rule R43): reset, and a fresh attach. The number of callers, the parameters, the draws taken, the schedule and
the mark `REFUSED` are no clock state (log 18). -/
def State.powerCycle (s : State) : State :=
  { State.launch s.params (s.callers.length - 1) with
    refused := s.refused, draws := s.draws, schedule := s.schedule, actor := s.actor }

/-- `REFUSED <- true`, nothing else changed (rules R36, R124; log 12). -/
def State.refuse (s : State) : State := { s with refused := true }

end Sys2Proof.Machine
end

