-- ==== Sys2Proof/Machine/BusRead.lean ====
section
/-! DEFINITION. The BUS reads (rules R100 to R122). -/

namespace Sys2Proof.Machine

/-- `RD_OFFSET_NS` (rule R102). -/
def execRdOffsetNs (s : State) : Host.Outcome State Fault Refusal := .next (s.busRead .offsetNs)

/-- `RD_OFFSET_SEC_LO` (rule R104). -/
def execRdOffsetSecLo (s : State) : Host.Outcome State Fault Refusal := .next (s.busRead .offsetSecLo)

/-- `RD_OFFSET_SEC_HI` (rule R106). -/
def execRdOffsetSecHi (s : State) : Host.Outcome State Fault Refusal := .next (s.busRead .offsetSecHi)

/-- `RD_INCREMENT` (rule R108): a draw. -/
def execRdIncrement (s : State) : Host.Outcome State Fault Refusal := .next (s.busRead .increment)

/-- `RD_CUR_NS` (rule R110). -/
def execRdCurNs (s : State) : Host.Outcome State Fault Refusal := .next (s.busRead .curNs)

/-- `RD_CUR_SEC_LO` (rule R112). -/
def execRdCurSecLo (s : State) : Host.Outcome State Fault Refusal := .next (s.busRead .curSecLo)

/-- `RD_CUR_SEC_HI` (rule R114). -/
def execRdCurSecHi (s : State) : Host.Outcome State Fault Refusal := .next (s.busRead .curSecHi)

/-- `RD_INT_STATUS` (rule R116): a read does not clear. -/
def execRdIntStatus (s : State) : Host.Outcome State Fault Refusal := .next (s.busRead .intStatus)

/-- `RD_PULSE_OFFSET_8K` (rule R118): a draw. -/
def execRdPulseOffset8k (s : State) : Host.Outcome State Fault Refusal := .next (s.busRead .pulseOffset8k)

/-- `RD_CORRECTION_FIELD_0` (rule R120): a draw. -/
def execRdCorrectionField0 (s : State) : Host.Outcome State Fault Refusal := .next (s.busRead .correctionField0)

/-- `RD_CORRECTION_FIELD_1` (rule R122): a draw. -/
def execRdCorrectionField1 (s : State) : Host.Outcome State Fault Refusal := .next (s.busRead .correctionField1)

end Sys2Proof.Machine
end

