-- ==== Sys2Proof/Machine/BusWrite.lean ====
section
/-! DEFINITION. The BUS writes (rules R101 to R123). Six are refused by their target, as the spec says. -/

namespace Sys2Proof.Machine

/-- `WR_OFFSET_NS` (rule R103): the offset commit. -/
def execWrOffsetNs (d : Word) (s : State) : Host.Outcome State Fault Refusal :=
  .next ((s.commitOffset d).wrote (.wrOffsetNs d))

/-- `WR_OFFSET_SEC_LO` (rule R105). -/
def execWrOffsetSecLo (d : Word) (s : State) : Host.Outcome State Fault Refusal :=
  .next ((s.stageSecLo d).wrote (.wrOffsetSecLo d))

/-- `WR_OFFSET_SEC_HI` (rule R107). -/
def execWrOffsetSecHi (d : Word) (s : State) : Host.Outcome State Fault Refusal :=
  .next ((s.stageSecHi d).wrote (.wrOffsetSecHi d))

/-- `WR_INCREMENT` (rule R109). -/
def execWrIncrement (d : Word) (s : State) : Host.Outcome State Fault Refusal :=
  .next ((s.writeInc d).wrote (.wrIncrement d))

/-- `WR_CUR_NS` (rule R111): refused, the register is read-only. -/
def execWrCurNs (_d : Word) (_s : State) : Host.Outcome State Fault Refusal := .refused .writeToReadOnly

/-- `WR_CUR_SEC_LO` (rule R113): refused, the register is read-only. -/
def execWrCurSecLo (_d : Word) (_s : State) : Host.Outcome State Fault Refusal := .refused .writeToReadOnly

/-- `WR_CUR_SEC_HI` (rule R115): refused, the register is read-only. -/
def execWrCurSecHi (_d : Word) (_s : State) : Host.Outcome State Fault Refusal := .refused .writeToReadOnly

/-- `WR_INT_STATUS` (rule R117); by the handler it is the acknowledgment (rule R194). -/
def execWrIntStatus (d : Word) (s : State) : Host.Outcome State Fault Refusal :=
  .next (if s.actor = .ih then s.ackHandler d else (s.clearPend d).wrote (.wrIntStatus d))

/-- `WR_PULSE_OFFSET_8K` (rule R119): refused, the register is unused. -/
def execWrPulseOffset8k (_d : Word) (_s : State) : Host.Outcome State Fault Refusal := .refused .writeToUnused

/-- `WR_CORRECTION_FIELD_0` (rule R121): refused, the register is unused. -/
def execWrCorrectionField0 (_d : Word) (_s : State) : Host.Outcome State Fault Refusal := .refused .writeToUnused

/-- `WR_CORRECTION_FIELD_1` (rule R123): refused, the register is unused. -/
def execWrCorrectionField1 (_d : Word) (_s : State) : Host.Outcome State Fault Refusal := .refused .writeToUnused

end Sys2Proof.Machine
end

