-- ==== Sys2Proof/Machine/HostOps.lean ====
section
/-! DEFINITION. The host operations (rules R160, R172, R173, R175, R196). A guarded operation's key starts it and takes
its first step; its later steps are the bus and guard steps of its sequence (`Ctx.nextInstr`), one schedule entry each. -/

namespace Sys2Proof.Machine

/-- `GET_TIME` (rule R172). -/
def execGetTime (s : State) : Host.Outcome State Fault Refusal :=
  s.hostOp fun k => s.startGuarded k .getTime

/-- `SET_TIME` (rule R173); a target outside the operand domain is refused (rule R75). -/
def execSetTime (target : TV) (s : State) : Host.Outcome State Fault Refusal :=
  if target.inTargetRange then s.hostOp fun k => s.startGuarded k (.setTime target) else .refused .badOperand

/-- `ADJ_TIME` (rule R175). -/
def execAdjTime (deltaNs : DWord) (s : State) : Host.Outcome State Fault Refusal :=
  s.hostOp fun k => s.startGuarded k (.adjTime deltaNs)

/-- `ADJ_FREQ` (rule R160): one step, the write of INCREMENT, without the guard (rule R162). -/
def execAdjFreq (ppb : Word) (s : State) : Host.Outcome State Fault Refusal :=
  s.hostOp fun k => (s.writeInc (low32 (freqIncrement s.params.nominal ppb.toInt))).returnTo k .ok

/-- `ENABLE` (rule R196): one local step, no bus access, no guard. -/
def execEnable (req : Nat) (s : State) : Host.Outcome State Fault Refusal :=
  s.hostOp fun k => (s.enablePps req).returnTo k (if req = s.params.kindPps then .ok else .unsupported)

end Sys2Proof.Machine
end

