-- ==== Sys2Proof/Machine/StepKeys.lean ====
section
/-! DEFINITION. The STEP keys (rules R130, R170, R190, R193, R197). -/

namespace Sys2Proof.Machine

/-- `TICK` (rule R130). -/
def execTick (s : State) : Host.Outcome State Fault Refusal := .next s.tickCounter

/-- `PULSE` (rule R190). -/
def execPulse (s : State) : Host.Outcome State Fault Refusal := .next s.raisePulse

/-- `IH_ENTRY` (rule R193); not enabled, it holds: the handler has no step (log 3). -/
def execIhEntry (s : State) : Host.Outcome State Fault Refusal :=
  .next (if s.entryEnabled then s.enterHandler else s)

/-- `REGISTER` (rule R197). -/
def execRegister (s : State) : Host.Outcome State Fault Refusal := .next { s with registered := true }

/-- `DEREGISTER` (rule R197). -/
def execDeregister (s : State) : Host.Outcome State Fault Refusal := .next { s with registered := false }

/-- `LOCK_ACQ` (rule R170), a step of a caller within a guarded operation (rule R77); elsewhere it is no step of the spec
and is refused (log 16). -/
def execLockAcq (s : State) : Host.Outcome State Fault Refusal :=
  s.guardStep .lockAcq fun k => .next (s.acquire k)

/-- `LOCK_REL` (rule R170), a step of a caller within a guarded operation (rule R77), which only the holder issues;
elsewhere it is no step of the spec and is refused (log 16). -/
def execLockRel (s : State) : Host.Outcome State Fault Refusal :=
  s.guardStep .lockRel fun k => if s.lock = some k then .next (s.release k) else .refused .guardNotHeld

end Sys2Proof.Machine
end

