-- ==== Sys2Proof/Machine/Dispatch.lean ====
section
/-! DEFINITION. One arm per row of the opcode table. -/

namespace Sys2Proof.Machine

def exec (i : Instr) (s : State) : Host.Outcome State Fault Refusal :=
  match i with
  | .rdOffsetNs => Sys2Proof.Machine.execRdOffsetNs s
  | .rdOffsetSecLo => Sys2Proof.Machine.execRdOffsetSecLo s
  | .rdOffsetSecHi => Sys2Proof.Machine.execRdOffsetSecHi s
  | .rdIncrement => Sys2Proof.Machine.execRdIncrement s
  | .rdCurNs => Sys2Proof.Machine.execRdCurNs s
  | .rdCurSecLo => Sys2Proof.Machine.execRdCurSecLo s
  | .rdCurSecHi => Sys2Proof.Machine.execRdCurSecHi s
  | .rdIntStatus => Sys2Proof.Machine.execRdIntStatus s
  | .rdPulseOffset8k => Sys2Proof.Machine.execRdPulseOffset8k s
  | .rdCorrectionField0 => Sys2Proof.Machine.execRdCorrectionField0 s
  | .rdCorrectionField1 => Sys2Proof.Machine.execRdCorrectionField1 s
  | .wrOffsetNs d => Sys2Proof.Machine.execWrOffsetNs d s
  | .wrOffsetSecLo d => Sys2Proof.Machine.execWrOffsetSecLo d s
  | .wrOffsetSecHi d => Sys2Proof.Machine.execWrOffsetSecHi d s
  | .wrIncrement d => Sys2Proof.Machine.execWrIncrement d s
  | .wrCurNs d => Sys2Proof.Machine.execWrCurNs d s
  | .wrCurSecLo d => Sys2Proof.Machine.execWrCurSecLo d s
  | .wrCurSecHi d => Sys2Proof.Machine.execWrCurSecHi d s
  | .wrIntStatus d => Sys2Proof.Machine.execWrIntStatus d s
  | .wrPulseOffset8k d => Sys2Proof.Machine.execWrPulseOffset8k d s
  | .wrCorrectionField0 d => Sys2Proof.Machine.execWrCorrectionField0 d s
  | .wrCorrectionField1 d => Sys2Proof.Machine.execWrCorrectionField1 d s
  | .getTime => Sys2Proof.Machine.execGetTime s
  | .setTime target => Sys2Proof.Machine.execSetTime target s
  | .adjTime deltaNs => Sys2Proof.Machine.execAdjTime deltaNs s
  | .adjFreq ppb => Sys2Proof.Machine.execAdjFreq ppb s
  | .enable req => Sys2Proof.Machine.execEnable req s
  | .tick => Sys2Proof.Machine.execTick s
  | .pulse => Sys2Proof.Machine.execPulse s
  | .ihEntry => Sys2Proof.Machine.execIhEntry s
  | .register => Sys2Proof.Machine.execRegister s
  | .deregister => Sys2Proof.Machine.execDeregister s
  | .lockAcq => Sys2Proof.Machine.execLockAcq s
  | .lockRel => Sys2Proof.Machine.execLockRel s

end Sys2Proof.Machine
end

