-- ==== Sys2Proof/Machine/Fetch.lean ====
section
/-! DEFINITION. Fetching the next step: the head of the schedule, the host-bus view of a register access, the agents'
rights to steps (rule R9), program order (rules R37, R62), and placing a code where it is fetched next. -/

namespace Sys2Proof.Machine

/-- What the fetch finds at the head of the schedule. -/
inductive Fetch where
  /-- An instruction to run, and the state to run it on. -/
  | run (i : Instr) (s : State)
  /-- No instruction: the agent has no step now, or the entry is an event of the edge. -/
  | done (s : State)
  | stop (f : Fault)
  | refuse (r : Refusal)
deriving DecidableEq, Repr

/-- The refusal reason of a code that selects nothing (rule R212; log 14). A misaligned BUS key is a reserved one (rules
R73, R78), so it carries the reason of rule R124 (log 13). -/
def refusalOf : DecodeError → Refusal
  | .noKey => .truncatedCode
  | .truncated => .truncatedCode
  | .misaligned => .reservedOffset
  | .reservedOffset => .reservedOffset
  | .reservedKey => .reservedKey

/-- The instruction of a code, or the reason it is refused. -/
def instrOf (code : List Byte) : Except Refusal Instr :=
  match decode code with
  | .ok (i, _) => .ok i
  | .error e => .error (refusalOf e)

/-- The BUS key of an access at an offset (rule R71): `key[7] = 0`, `key[6] = W`, `key[5:0] = A`. -/
def busKey (w : Bool) (a : BitVec 6) : Byte := (0#1 ++ BitVec.ofBool w ++ a)

/-- A host-bus transaction as the register access it is (rules R14, R51, R54, R55): a host address outside the block is
not the block's (log 14), a width other than four bytes is refused, then the offset decodes as a BUS key. That the width is
tested before the offset, and before a read-only or unused register refuses the write, is a DESIGN CHOICE (log 38): the
order of rule R78 has no width test. -/
def hostInstr (p : Params) (acc : HostAccess) : Except Refusal Instr :=
  match acc with
  | .read addr width =>
    if addr < p.base ∨ p.base + Config.blockSize ≤ addr then .error .outsideBlock
    else if width ≠ 4 then .error .badWidthOrAlignment
    else instrOf [busKey false (BitVec.ofNat 6 (addr - p.base))]
  | .write addr bytes =>
    if addr < p.base ∨ p.base + Config.blockSize ≤ addr then .error .outsideBlock
    else if bytes.length ≠ 4 then .error .badWidthOrAlignment
    else instrOf (busKey true (BitVec.ofNat 6 (addr - p.base)) :: bytes)

/-- Whether an agent is a caller. -/
def Agent.isCaller : Agent → Bool
  | .caller _ => true
  | .tb | .ps | .ih | .host => false

/-- Whether an agent still has steps after detach (rule R42): `TB` and `PS`. -/
def Agent.outlivesCore : Agent → Bool
  | .tb | .ps => true
  | .caller _ | .ih | .host => false

/-- Whether agent `a` has the step `i` (rules R9, R77, R100): bus accesses, host operations and the guard are the
callers', the handler's one bus access is its acknowledgment (rule R194). -/
def Agent.has (a : Agent) (i : Instr) : Bool :=
  match i with
  | .tick => a == .tb
  | .pulse => a == .ps
  | .ihEntry => a == .ih
  | .register => a == .host
  | .deregister => a == .host
  | .wrIntStatus d => a.isCaller || (a == .ih && d == 1)
  | .rdOffsetNs | .rdOffsetSecLo | .rdOffsetSecHi | .rdIncrement | .rdCurNs | .rdCurSecLo | .rdCurSecHi
  | .rdIntStatus | .rdPulseOffset8k | .rdCorrectionField0 | .rdCorrectionField1 => a.isCaller
  | .wrOffsetNs _ | .wrOffsetSecLo _ | .wrOffsetSecHi _ | .wrIncrement _ | .wrCurNs _ | .wrCurSecLo _
  | .wrCurSecHi _ | .wrPulseOffset8k _ | .wrCorrectionField0 _ | .wrCorrectionField1 _ => a.isCaller
  | .getTime | .setTime _ | .adjTime _ | .adjFreq _ | .enable _ => a.isCaller
  | .lockAcq | .lockRel => a.isCaller

/-- Whether the agent is one of this machine (rule R9: the callers are `C1..C{N_CALLERS}`). -/
def State.hasAgent (a : Agent) (s : State) : Bool :=
  match a with
  | .caller k =>
    match s.callers[k]? with
    | some _ => true
    | none => false
  | .tb | .ps | .ih | .host => true

/-- Whether `i` would break the program order of agent `a` (rules R37, R62): a caller with an operation in progress has
only the next step of its sequence. -/
def State.breaksOrder (a : Agent) (i : Instr) (s : State) : Bool :=
  match a with
  | .caller k =>
    match s.callers[k]? with
    | some c => c.op != .idle && c.nextInstr s.params != some i
    | none => false
  | .tb | .ps | .ih | .host => false

/-- Agent `a` is scheduled with the step `i`. The order of the tests (the agent's right to the step, its attachment, its
program order, then the step's own refusals) is a DESIGN CHOICE (log 39). -/
def State.offer (a : Agent) (i : Instr) (s : State) : Fetch :=
  if (a.has i && s.hasAgent a) = false then .refuse .wrongAgent
  else if (s.attached || a.outlivesCore) = false then .stop .detached
  else if s.breaksOrder a i then .refuse .outOfSequence
  else .run i { s with actor := a }

/-- One entry of the schedule, on the state behind it. An entry is decoded before anything of its agent is tested, and the
turn of an idle caller is a hold whether or not the core is attached; so after detach (rule R42) a code that selects nothing
is refused, for the reason of rule R212 or log 14, and an idle caller's turn is a next state. That is a DESIGN CHOICE
(log 39): the spec names no outcome for an entry of an agent without a step. -/
def State.take (e : Entry) (s : State) : Fetch :=
  match e with
  | .issue a code =>
    match instrOf code with
    | .ok i => s.offer a i
    | .error r => .refuse r
  | .bus a acc =>
    match hostInstr s.params acc with
    | .ok i => s.offer a i
    | .error r => .refuse r
  | .go k =>
    match s.callers[k]? with
    | none => .refuse .wrongAgent
    | some c =>
      match c.nextInstr s.params with
      | none => .done s
      | some i => s.offer (.caller k) i
  | .detach => .done s.detach
  | .powerCycle => .done s.powerCycle

/-- Whether every caller is idle and the handler too (rule R253). -/
def State.quiet (s : State) : Bool := s.callers.all (fun c => c.op == .idle) && s.ihState == .idle

/-- The fetch (rule R61): the first entry of the schedule moves. With no entry left the run has ended if all is quiet (rule
R253) or the core is detached (rule R42); otherwise the schedule was cut short (log 15). -/
def State.fetch (s : State) : Fetch :=
  match s.schedule with
  | [] => .stop (if s.quiet || !s.attached then .runEnded else .scheduleCut)
  | e :: rest => State.take e { s with schedule := rest }

/-- The agent that has a step (rules R9, R77); the first caller for the callers' steps and for a code that selects
nothing. -/
def agentOfCode (code : List Byte) : Agent :=
  match instrOf code with
  | .ok .tick => .tb
  | .ok .pulse => .ps
  | .ok .ihEntry => .ih
  | .ok .register => .host
  | .ok .deregister => .host
  | .ok _ => .caller 0
  | .error _ => .caller 0

/-- Where the first caller stands so that it can issue the code: before the first step of a guarded operation for
`LOCK_ACQ`, before the last one for `LOCK_REL` (rules R77, R170, R172), and idle for any other (rule R37). -/
def placeOfCode (code : List Byte) : Op × Nat :=
  match instrOf code with
  | .ok .lockAcq => (.getTime, 0)
  | .ok .lockRel => (.getTime, 3)
  | .ok _ => (.idle, 0)
  | .error _ => (.idle, 0)

/-- The guard as the code's issuer needs it: `LOCK_REL` is its holder's (rule R170). -/
def lockOfCode (code : List Byte) (lock : Option Nat) : Option Nat :=
  match instrOf code with
  | .ok .lockRel => some 0
  | .ok _ => lock
  | .error _ => lock

/-- The callers with the first one at a place in an operation; there is at least one (rule R11). -/
def placeFirst (place : Op × Nat) : List Ctx → List Ctx
  | [] => [{ Ctx.idle with op := place.1, sp := place.2 }]
  | c :: cs => { c with op := place.1, sp := place.2 } :: cs

/-- The state whose next step is the given code, issued by the agent that has it: the core is attached, the first caller
stands where it can issue the code, and for `LOCK_REL` it holds the guard (log 2). -/
def State.placeCode (code : List Byte) (s : State) : State :=
  { s with
    attached := true
    callers := placeFirst (placeOfCode code) s.callers
    lock := lockOfCode code s.lock
    schedule := .issue (agentOfCode code) code :: s.schedule }

/-- The state in which the block continues after a refused step, as the spec has it (rules R17, R36, R124): the entry is
consumed and the mark is set (log 12). -/
def State.afterRefusal (s : State) : State := State.refuse { s with schedule := s.schedule.tail }

end Sys2Proof.Machine
end

