-- ==== Sys2Proof/Machine/Step.lean ====
section
/-! DEFINITION. One step: fetch the head of the schedule, run it. The host's way to place a table word. -/

namespace Sys2Proof.Machine

/-- One atomic step of one agent (rules R9, R56, R61). -/
def step (s : State) : Host.Outcome State Fault Refusal :=
  match s.fetch with
  | .run i t => exec i t
  | .done t => .next t
  | .stop f => .fault f
  | .refuse r => .refused r

/-- The state after a step in the spec's own terms (rule R17): the next state; after a refusal the state with the mark
`REFUSED` set; unchanged where no agent moves. -/
def settle (s : State) : State :=
  match step s with
  | .next t => t
  | .refused _ => s.afterRefusal
  | .fault _ => s

/-- The table word placed where `step` fetches next (host interface). -/
def State.withFetchWord (s : State) (nbits w : Nat) : State := s.placeCode (tableBytes nbits w)

end Sys2Proof.Machine
end

