-- ==== Sys2Proof/Safety.lean ====
section
/-! DEFINITION. What counts as a safe run: the state invariant, runs of several steps, and the terms the statements use. -/

namespace Sys2Proof.Machine

/-- Caller `k`, with context `c`, is the acting agent. -/
def State.Acting (s : State) (k : Nat) (c : Ctx) : Prop := s.actor = .caller k ∧ s.callers[k]? = some c

/-- A caller is inside a guarded operation, between its `LOCK_ACQ` and its `LOCK_REL` (rules R66, R171). -/
def Ctx.Inside (c : Ctx) : Prop := c.op ≠ .idle ∧ 1 ≤ c.sp

/-- The index of the last step of the operation in progress, its `LOCK_REL` (rules R172, R173, R175). -/
def Ctx.lastStep (c : Ctx) : Nat :=
  match c.op with
  | .idle => 0
  | .getTime => 3
  | .setTime _ => 9
  | .adjTime d => if isCoarse d.toInt then 6 else 2

/-- Whether the computed time value is an offset still to be written (rules R173, R176). -/
def Ctx.holdsOffset (c : Ctx) : Bool :=
  match c.op with
  | .idle => false
  | .getTime => false
  | .setTime _ => decide (6 ≤ c.sp)
  | .adjTime d => isCoarse d.toInt && decide (3 ≤ c.sp)

/-- A nanoseconds part in range (rule R15). -/
def NsInRange (t : TV) : Prop := 0 ≤ t.ns ∧ t.ns < (Config.nsecPerSec : Int)

/-- A context that its operation's sequence can reach: `sp` is a step of the sequence, and an offset still to be written
has its nanoseconds in range (rule R138). -/
def Ctx.Legal (c : Ctx) : Prop :=
  c.sp ≤ c.lastStep ∧ (c.holdsOffset = true → NsInRange c.tv)

/-- The invariant of the machine. -/
structure State.Inv (s : State) : Prop where
  /-- The parameters lie in their domains (rules R11, R40). -/
  params : s.params.Legal
  /-- `CTR_NSFX` in 0..NSEC_PER_SEC*2^20-1 (rule R24). -/
  counter : s.ctrNsfx < Config.nsfxPerSec
  /-- `0 <= pulse_count < PULSES_PER_SECOND` (rule R30). -/
  count : s.pulseCount < Config.pulsesPerSecond
  /-- `N_CALLERS >= 1` (rule R11). -/
  someCaller : s.callers ≠ []
  /-- Every context is one its operation reaches (rule R37). -/
  legal : ∀ (k : Nat) (c : Ctx), s.callers[k]? = some c → c.Legal
  /-- A caller inside a guarded operation holds the guard (rules R170, R171). -/
  guard : ∀ (k : Nat) (c : Ctx), s.callers[k]? = some c → c.Inside → s.lock = some k
  /-- The holder of the guard is a caller of the machine, inside a guarded operation (rules R32, R77, R171). -/
  holder : ∀ k, s.lock = some k → ∃ c, s.callers[k]? = some c ∧ c.Inside

/-- An instruction `i` that takes `s` to `t` has changed each element only if it is a step that writes it (rules R23 to R28,
R30 to R32, R34 to R36, R38). The contexts and the count of draws are not among the elements. -/
structure ChangedOnlyBy (i : Instr) (s t : State) : Prop where
  counter : t.ctrSec ≠ s.ctrSec ∨ t.ctrNsfx ≠ s.ctrNsfx → i = .tick
  inc : t.inc ≠ s.inc → (∃ d, i = .wrIncrement d) ∨ (∃ p, i = .adjFreq p)
  offset : t.offNs ≠ s.offNs ∨ t.offSec ≠ s.offSec → ∃ d, i = .wrOffsetNs d
  stgSecLo : t.stgSecLo ≠ s.stgSecLo → ∃ d, i = .wrOffsetSecLo d
  stgSecHi : t.stgSecHi ≠ s.stgSecHi → ∃ d, i = .wrOffsetSecHi d
  intPend : t.intPend ≠ s.intPend → i = .pulse ∨ ∃ d, i = .wrIntStatus d
  countAndEvents : t.pulseCount ≠ s.pulseCount ∨ t.events ≠ s.events → i = .ihEntry
  ihState : t.ihState ≠ s.ihState → i = .ihEntry ∨ ∃ d, i = .wrIntStatus d
  ppsEnabled : t.ppsEnabled ≠ s.ppsEnabled → (∃ r, i = .enable r) ∧ t.ppsEnabled = true
  registered : t.registered ≠ s.registered → i = .register ∨ i = .deregister
  lock : t.lock ≠ s.lock →
    i = .lockAcq ∨ i = .lockRel ∨ i = .getTime ∨ (∃ tv, i = .setTime tv) ∨ ∃ d, i = .adjTime d
  refused : t.refused = s.refused
  attached : t.attached = s.attached
  params : t.params = s.params

/-- `n` steps, each answering a next state. -/
def stepN : Nat → State → Option State
  | 0, s => some s
  | n + 1, s =>
    match step s with
    | .next t => stepN n t
    | .fault _ => none
    | .refused _ => none

/-- One complete handler service (rule R198): a pulse, `IH_ENTRY`, `IH_ACK`. -/
def serviceRound : List Entry :=
  [.issue .ps [0xC1], .issue .ih [0xC2], .issue .ih [0x60, 0x00, 0x00, 0x00, 0x01]]

/-- `k` complete handler services. -/
def serviceRounds : Nat → List Entry
  | 0 => []
  | k + 1 => serviceRound ++ serviceRounds k

/-- The entry that starts or takes the step `i` by agent `a`. -/
def issueOf (a : Agent) (i : Instr) : Entry := .issue a (encode i)

end Sys2Proof.Machine
end

