-- ==== Sys2Proof/Certificates/Slice0/Obligations.lean ====
section
/-! DEFINITION. The statements for the provers. Each docstring names the rule of spec/ it formalises, or says that it rests
on a choice of the model and names the log entry. `rdata`, `draws`, `schedule`, `actor` and `params` are the model's own
fields (log 2, 5, 7, 10, 11). -/

open Sys2Proof Sys2Proof.Machine

/-! ### Encoding -/

/-- Rules R71 to R78, with the operand bytes of log 1 (DESIGN CHOICE): no bit of an encoding is dropped. Rests on
the spec's own choice D29. -/
def Obligations.DecodeOfEncodeIsTheInstruction : Prop :=
  ∀ (i : Instr) (rest : List Byte), i.wellFormed = true → decode (encode i ++ rest) = .ok (i, rest)

/-- Rules R71 to R78, with the operand bytes of log 1 (DESIGN CHOICE): every code that decodes is the code of the
instruction it decodes to, so each code has one meaning and no two codes have the same. Rests on the spec's own
choice D29. -/
def Obligations.EncodeOfDecodeIsTheCode : Prop :=
  ∀ (bs : List Byte) (i : Instr) (rest : List Byte), decode bs = .ok (i, rest) → encode i ++ rest = bs

/-- Rules R72, R74, R77: words of each format, written out from the tables (vectors DK1, DK2, DK9, DK10, DK11, DK14,
DK15; operand bytes of log 1). Rests on the spec's own choice D29. -/
def Obligations.TableWordsDecode : Prop :=
  decode [0x00] = .ok (.rdOffsetNs, []) ∧
  decode [0x40, 0x00, 0x00, 0x00, 0xFA] = .ok (.wrOffsetNs 250, []) ∧
  decode [0x60, 0x00, 0x00, 0x00, 0x01] = .ok (.wrIntStatus 1, []) ∧
  decode [0x80] = .ok (.getTime, []) ∧
  decode [0x84, 0x00, 0x00, 0x00, 0x02] = .ok (.enable 2, []) ∧
  decode [0xC0] = .ok (.tick, []) ∧
  decode [0xC6] = .ok (.lockRel, [])

/-- Rules R124, R73, R78, R212: a BUS key at a reserved offset is refused, and the state is unchanged but for `REFUSED` (the
consumed schedule entry is the model's own, log 2). The reason is `reserved_offset`; for a misaligned key that is log 13
(DEDUCED); it comes first also where the agent has no step now, after detach too (log 39, DESIGN CHOICE). Rests on the
spec's own choice D4. -/
def Obligations.ReservedOffsetIsRefused : Prop :=
  ∀ (s : State) (a : Agent) (key : Byte) (ops : List Byte) (rest : List Entry),
    key.getLsbD 7 = false →
    (key.extractLsb' 0 2 ≠ 0 ∨ key.extractLsb' 0 6 ∈ ([0x04, 0x28, 0x34, 0x38, 0x3C] : List (BitVec 6))) →
    s.schedule = .issue a (key :: ops) :: rest →
    step s = .refused .reservedOffset ∧ settle s = { s with schedule := rest, refused := true }

/-- Rule R79 (the spec's own choice, D29): the keys 0x85..0xBF and 0xC7..0xFF select nothing and a step with one is refused,
whoever issues it, also an agent that has no step now, after detach too (log 39, DESIGN CHOICE); the six keys of writes to
read-only or unused registers select an access and are not among them. -/
def Obligations.ReservedKeyIsRefused : Prop :=
  (∀ (s : State) (a : Agent) (key : Byte) (ops : List Byte) (rest : List Entry),
    (0x85 ≤ key.toNat ∧ key.toNat ≤ 0xBF) ∨ 0xC7 ≤ key.toNat →
    s.schedule = .issue a (key :: ops) :: rest → step s = .refused .reservedKey) ∧
  (∀ key ∈ ([0x54, 0x58, 0x5C, 0x64, 0x6C, 0x70] : List Byte), ∀ (s : State) (a : Agent) (d : Word) (rest : List Entry),
    s.schedule = .issue a (key :: wordBytes d) :: rest → step s ≠ .refused .reservedKey)

/-! ### The host bus -/

/-- Rules R14, R51, R72: a four-byte transaction at `BASE + A` is the register access at offset A: it does what the BUS key of
A does, and for each register at its own offset it is the read of that register, or the write of the word whose four
bytes are written. Rests on the spec's own choice D29. -/
def Obligations.HostBusReachesTheOffset : Prop :=
  (∀ (s : State) (a : Agent) (off : Nat) (bytes : List Byte), off < 64 →
    State.take (.bus a (.read (s.params.base + off) 4)) s =
      State.take (.issue a [busKey false (BitVec.ofNat 6 off)]) s ∧
    (bytes.length = 4 →
      State.take (.bus a (.write (s.params.base + off) bytes)) s =
        State.take (.issue a (busKey true (BitVec.ofNat 6 off) :: bytes)) s)) ∧
  (∀ (s : State) (a : Agent) (r : Reg) (d : Word),
    State.take (.bus a (.read (s.params.base + r.offset.toNat) 4)) s = State.take (.issue a (encode r.readInstr)) s ∧
    State.take (.bus a (.write (s.params.base + r.offset.toNat) (wordBytes d))) s =
      State.take (.issue a (encode (r.writeInstr d))) s)

/-- Rules R54, R55, R73, R124: a transaction in the block of another width is refused as `bad_width_or_alignment`, whatever its
offset and register (log 38, DESIGN CHOICE) and whoever makes it, after detach too (log 39, DESIGN CHOICE, for each of the
refusals here); one of 32 bits at an offset that is no multiple of 4 is refused as the
reserved BUS key it is (log 13, DEDUCED); an aligned one of 32 bits is not refused for its width or alignment, nor as
reserved where a register stands. Rests on the spec's own choices D3, D4. -/
def Obligations.OtherWidthOrMisalignedIsRefused : Prop :=
  ∀ (s : State) (a : Agent) (off : Nat) (rest : List Entry), off < 64 →
    (∀ width, s.schedule = .bus a (.read (s.params.base + off) width) :: rest →
      (width ≠ 4 → step s = .refused .badWidthOrAlignment) ∧
      (width = 4 → off % 4 ≠ 0 → step s = .refused .reservedOffset) ∧
      (width = 4 → off % 4 = 0 → step s ≠ .refused .badWidthOrAlignment) ∧
      (width = 4 → (∃ r : Reg, r.offset.toNat = off) → step s ≠ .refused .reservedOffset)) ∧
    (∀ bytes, s.schedule = .bus a (.write (s.params.base + off) bytes) :: rest →
      (bytes.length ≠ 4 → step s = .refused .badWidthOrAlignment) ∧
      (bytes.length = 4 → off % 4 ≠ 0 → step s = .refused .reservedOffset) ∧
      (bytes.length = 4 → off % 4 = 0 → step s ≠ .refused .badWidthOrAlignment) ∧
      (bytes.length = 4 → (∃ r : Reg, r.offset.toNat = off) → step s ≠ .refused .reservedOffset))

/-- Rules R52, R53: a word goes to the bus most significant byte first. The host that writes 0x00, 0x80, 0x00, 0x00 at
`BASE + 0x10` writes `INC = 0x00800000`; any word written as its four bytes is that word; 999999999 is 0x3B, 0x9A,
0xC9, 0xFF. -/
def Obligations.BytesAreBigEndian : Prop :=
  (∀ (s : State) (k : Nat) (c : Ctx) (rest : List Entry),
    s.attached = true → s.callers[k]? = some c → c.op = .idle →
    s.schedule = .bus (.caller k) (.write (s.params.base + 0x10) [0x00, 0x80, 0x00, 0x00]) :: rest →
    step s = .next { s with inc := 0x00800000, schedule := rest, actor := .caller k }) ∧
  (∀ w : Word, takeWord (wordBytes w) = some (w, []) ∧
    wordBytes w = [w.extractLsb' 24 8, w.extractLsb' 16 8, w.extractLsb' 8 8, w.extractLsb' 0 8]) ∧
  wordBytes 999999999 = [0x3B, 0x9A, 0xC9, 0xFF]

/-! ### The step -/

/-- Rules R9, R61, R62: when the head of the schedule is a code that decodes to `i`, issued by an agent that has that step
now, the step is `exec i` on the state with the entry taken and that agent acting (log 2, log 10). Rests on the
spec's own choices D1, D2. -/
def Obligations.StepRunsTheDecodedInstruction : Prop :=
  ∀ (s : State) (a : Agent) (code : List Byte) (i : Instr) (tail : List Byte) (rest : List Entry),
    s.schedule = .issue a code :: rest → decode code = .ok (i, tail) →
    a.has i = true → s.hasAgent a = true → (s.attached = true ∨ a = .tb ∨ a = .ps) → s.breaksOrder a i = false →
    step s = exec i { s with schedule := rest, actor := a }

/-- Log 2 (DESIGN CHOICE): a table word placed by `withFetchWord` is what the next step runs, from every state, by an agent
that has it. The first caller is idle for it, but before the first step of `get_time` for `LOCK_ACQ`, and before its last
one, holding the guard, for `LOCK_REL` (log 16). -/
def Obligations.PlacedWordRunsNext : Prop :=
  ∀ (s : State) (nbits w : Nat) (i : Instr), decodeTableWord nbits w = some i →
    ∃ (a : Agent) (place : Op × Nat) (lock : Option Nat), a.has i = true ∧
      step (s.withFetchWord nbits w) =
        exec i { s with attached := true, callers := placeFirst place s.callers, lock := lock, actor := a } ∧
      (i = .lockAcq → place = (.getTime, 0) ∧ lock = s.lock) ∧
      (i = .lockRel → place = (.getTime, 3) ∧ lock = some 0) ∧
      (i ≠ .lockAcq → i ≠ .lockRel → place = (.idle, 0) ∧ lock = s.lock)

/-- Rules R37, R62: a caller takes the next step of its operation by running the instruction its sequence lists
there. Rests on the spec's own choice D2. -/
def Obligations.GoRunsTheNextStep : Prop :=
  ∀ (s : State) (k : Nat) (c : Ctx) (i : Instr) (rest : List Entry),
    s.schedule = .go k :: rest → s.attached = true → s.callers[k]? = some c → c.nextInstr s.params = some i →
    step s = exec i { s with schedule := rest, actor := .caller k }

/-! ### Register reads -/

/-- Rules R57, R100: the read of any register (`RD_OFFSET_NS`, `RD_OFFSET_SEC_LO`, `RD_OFFSET_SEC_HI`, `RD_INCREMENT`,
`RD_CUR_NS`, `RD_CUR_SEC_LO`, `RD_CUR_SEC_HI`, `RD_INT_STATUS`, `RD_PULSE_OFFSET_8K`, `RD_CORRECTION_FIELD_0`,
`RD_CORRECTION_FIELD_1`) completes in every state and changes nothing but the reader's context (and the model's count of
draws, log 7). Rests on the spec's own choice D11. -/
def Obligations.ReadsLeaveTheBlockAlone : Prop :=
  ∀ (r : Reg) (s : State), ∃ t, exec r.readInstr s = .next t ∧
    t = { s with callers := t.callers, draws := t.draws } ∧
    t.callers.length = s.callers.length ∧
    (∀ j, s.actor ≠ .caller j → t.callers[j]? = s.callers[j]?) ∧
    (∀ k c, s.Acting k c → ∃ c', t.callers[k]? = some c' ∧ (c.op = .idle → c' = { c with rdata := c'.rdata }))

/-- Rules R102, R104, R106: OFFSET_NS reads the active offset; a seconds word reads the active word while it equals the
staged one, and otherwise one of the two. Rests on the spec's own choice D8. -/
def Obligations.OffsetReadsGiveTheActiveOffset : Prop :=
  ∀ (s : State) (k : Nat) (c : Ctx), s.Acting k c →
    (exec .rdOffsetNs s = .next { s with
        callers := s.callers.set k { c.after s.params .rdOffsetNs s.offNs with rdata := s.offNs } }) ∧
    (s.stgSecLo = s.offSec.extractLsb' 0 32 →
      exec .rdOffsetSecLo s = .next { s with
        callers := s.callers.set k { c.after s.params .rdOffsetSecLo s.stgSecLo with rdata := s.stgSecLo } }) ∧
    (s.stgSecLo ≠ s.offSec.extractLsb' 0 32 → ∃ v, (v = s.stgSecLo ∨ v = s.offSec.extractLsb' 0 32) ∧
      exec .rdOffsetSecLo s = .next { s with
        draws := s.draws + 1
        callers := s.callers.set k { c.after s.params .rdOffsetSecLo v with rdata := v } }) ∧
    (s.stgSecHi = s.offSec.extractLsb' 32 32 →
      exec .rdOffsetSecHi s = .next { s with
        callers := s.callers.set k { c.after s.params .rdOffsetSecHi s.stgSecHi with rdata := s.stgSecHi } }) ∧
    (s.stgSecHi ≠ s.offSec.extractLsb' 32 32 → ∃ v, (v = s.stgSecHi ∨ v = s.offSec.extractLsb' 32 32) ∧
      exec .rdOffsetSecHi s = .next { s with
        draws := s.draws + 1
        callers := s.callers.set k { c.after s.params .rdOffsetSecHi v with rdata := v } })

/-- Rules R110, R112, R114, R132: with `OFF_NS < NSEC_PER_SEC` the current-time registers read the sum of counter and
offset, with one carry at 10^9 ns into the 64-bit seconds; the nanoseconds read are below 10^9. Rests on the spec's
own choice D9. -/
def Obligations.CurrentTimeReadsTheComposition : Prop :=
  ∀ (s : State) (k : Nat) (c : Ctx) (n : Nat) (ns : Word) (sec : DWord), s.Acting k c →
    s.ctrNsfx < 1000000000 * 1048576 → s.offNs.toNat < 1000000000 →
    n = s.ctrNsfx / 1048576 + s.offNs.toNat →
    ns = BitVec.ofNat 32 (if n < 1000000000 then n else n - 1000000000) →
    sec = s.ctrSec + s.offSec + (if n < 1000000000 then 0 else 1) →
    ns.toNat < 1000000000 ∧
    exec .rdCurNs s = .next { s with
        callers := s.callers.set k { c.after s.params .rdCurNs ns with rdata := ns } } ∧
    exec .rdCurSecLo s = .next { s with
        callers := s.callers.set k { c.after s.params .rdCurSecLo (sec.extractLsb' 0 32) with rdata := sec.extractLsb' 0 32 } } ∧
    exec .rdCurSecHi s = .next { s with
        callers := s.callers.set k { c.after s.params .rdCurSecHi (sec.extractLsb' 32 32) with rdata := sec.extractLsb' 32 32 } }

/-- Rules R108, R118, R120, R122, R133: INCREMENT and the unused registers read a draw, and so do the current-time
registers while `OFF_NS >= NSEC_PER_SEC`. The draw is the free value of log 7; nothing constrains it. Rests on the
spec's own choices D6, D7, D12. -/
def Obligations.UnknownReadsDraw : Prop :=
  ∀ (s : State) (k : Nat) (c : Ctx) (i : Instr), s.Acting k c →
    (i = .rdIncrement ∨ i = .rdPulseOffset8k ∨ i = .rdCorrectionField0 ∨ i = .rdCorrectionField1 ∨
      (1000000000 ≤ s.offNs.toNat ∧ (i = .rdCurNs ∨ i = .rdCurSecLo ∨ i = .rdCurSecHi))) →
    exec i s = .next { s with
        draws := s.draws + 1
        callers := s.callers.set k { c.after s.params i (Config.freeWord s.draws) with rdata := Config.freeWord s.draws } }

/-- Rule R116: bit 0 of an INT_STATUS read is `INT_PEND`, the other bits are those of a draw (log 7), and nothing is
cleared. Rests on the spec's own choice D16. -/
def Obligations.IntStatusReadsPendInBitZero : Prop :=
  ∀ (s : State) (k : Nat) (c : Ctx), s.Acting k c →
    ∃ v : Word, v.getLsbD 0 = s.intPend ∧ (∀ j, 1 ≤ j → v.getLsbD j = (Config.freeWord s.draws).getLsbD j) ∧
      exec .rdIntStatus s = .next { s with
        draws := s.draws + 1
        callers := s.callers.set k { c.after s.params .rdIntStatus v with rdata := v } }

/-! ### Register writes -/

/-- Rules R103, R26: a write of OFFSET_NS takes the word and the staged seconds as the active offset in one step, and the
staging registers keep their values. -/
def Obligations.OffsetNsWriteCommitsBothWords : Prop :=
  ∀ (s : State) (k : Nat) (c : Ctx) (d : Word), s.Acting k c →
    exec (.wrOffsetNs d) s = .next { s with
      offNs := d
      offSec := s.stgSecHi ++ s.stgSecLo
      callers := s.callers.set k (c.after s.params (.wrOffsetNs d) 0) }

/-- Rules R105, R107, R27: a write of a seconds word goes to its staging register alone, and the composed current time is
the same after it. -/
def Obligations.SecondsWritesOnlyStage : Prop :=
  ∀ (s : State) (k : Nat) (c : Ctx) (d : Word), s.Acting k c →
    ∃ t u, exec (.wrOffsetSecLo d) s = .next t ∧ exec (.wrOffsetSecHi d) s = .next u ∧
      t = { s with stgSecLo := d, callers := s.callers.set k (c.after s.params (.wrOffsetSecLo d) 0) } ∧
      u = { s with stgSecHi := d, callers := s.callers.set k (c.after s.params (.wrOffsetSecHi d) 0) } ∧
      t.curNs = s.curNs ∧ t.curSec = s.curSec ∧ u.curNs = s.curNs ∧ u.curSec = s.curSec

/-- Rule R109: a write of INCREMENT sets `INC` to any word, and the next tick adds it. Rests on the spec's own
choices D10, D13. -/
def Obligations.IncrementWriteSetsTheRate : Prop :=
  ∀ (s : State) (k : Nat) (c : Ctx) (d : Word), s.Acting k c →
    ∃ t, exec (.wrIncrement d) s = .next t ∧
      t = { s with inc := d, callers := s.callers.set k (c.after s.params (.wrIncrement d) 0) } ∧
      ∃ u, exec .tick t = .next u ∧
        u.ctrNsfx + u.ctrSec.toNat * (1000000000 * 1048576) ≡
          s.ctrNsfx + s.ctrSec.toNat * (1000000000 * 1048576) + d.toNat
          [MOD 18446744073709551616 * (1000000000 * 1048576)]

/-- Rule R117: a write of INT_STATUS by a caller clears `INT_PEND` exactly when bit 0 is 1; bits 31:1 are ignored.
Rests on the spec's own choice D16. -/
def Obligations.IntStatusWriteOneClears : Prop :=
  ∀ (s : State) (k : Nat) (c : Ctx) (d : Word), s.Acting k c →
    exec (.wrIntStatus d) s = .next { s with
      intPend := if d.getLsbD 0 = true then false else s.intPend
      callers := s.callers.set k (c.after s.params (.wrIntStatus d) 0) }

/-- Rules R111, R113, R115 (the spec's own choice, D5): keys 0x54, 0x58 and 0x5C, with the operand bytes of log 1 (DESIGN
CHOICE), name the writes to the current-time registers, and each is refused in every state. -/
def Obligations.ReadOnlyWritesAreRefused : Prop :=
  ∀ (s : State) (d : Word),
    (decode (0x54 :: wordBytes d) = .ok (.wrCurNs d, []) ∧ exec (.wrCurNs d) s = .refused .writeToReadOnly) ∧
    (decode (0x58 :: wordBytes d) = .ok (.wrCurSecLo d, []) ∧ exec (.wrCurSecLo d) s = .refused .writeToReadOnly) ∧
    (decode (0x5C :: wordBytes d) = .ok (.wrCurSecHi d, []) ∧ exec (.wrCurSecHi d) s = .refused .writeToReadOnly)

/-- Rules R119, R121, R123 (the spec's own choice, D6): keys 0x64, 0x6C and 0x70, with the operand bytes of log 1 (DESIGN
CHOICE), name the writes to the unused registers, and each is refused in every state. -/
def Obligations.UnusedWritesAreRefused : Prop :=
  ∀ (s : State) (d : Word),
    (decode (0x64 :: wordBytes d) = .ok (.wrPulseOffset8k d, []) ∧
      exec (.wrPulseOffset8k d) s = .refused .writeToUnused) ∧
    (decode (0x6C :: wordBytes d) = .ok (.wrCorrectionField0 d, []) ∧
      exec (.wrCorrectionField0 d) s = .refused .writeToUnused) ∧
    (decode (0x70 :: wordBytes d) = .ok (.wrCorrectionField1 d, []) ∧
      exec (.wrCorrectionField1 d) s = .refused .writeToUnused)

/-- Rule R140: the three writes of `write_offset(tv)`, with any steps between them that leave the staging registers alone,
leave the offset `(low32(tv.sec), tv.ns)` and the staging registers equal to it. For seconds outside 0..2^32-1 that they are
kept modulo 2^32 (rule R139) rests on the spec's own choice D22 (`low32`, log 32). -/
def Obligations.WriteOffsetSequenceSetsTheOffset : Prop :=
  ∀ (s1 s2 s3 t1 t2 t3 : State) (tv : TV), NsInRange tv →
    exec (.wrOffsetSecHi 0) s1 = .next t1 →
    s2.stgSecHi = t1.stgSecHi → exec (.wrOffsetSecLo (low32 tv.sec)) s2 = .next t2 →
    s3.stgSecHi = t2.stgSecHi → s3.stgSecLo = t2.stgSecLo → exec (.wrOffsetNs (low32 tv.ns)) s3 = .next t3 →
    (t3.offSec.toNat : Int) = tv.sec % 4294967296 ∧ (t3.offNs.toNat : Int) = tv.ns ∧
    t3.stgSecLo = t3.offSec.extractLsb' 0 32 ∧ t3.stgSecHi = 0

/-- Rule R58: repeating a write of an offset register or of INCREMENT with the same value, or a write of 1 to INT_STATUS,
leaves what one write leaves (by a caller with no operation in progress). -/
def Obligations.RepeatedWritesAreIdempotent : Prop :=
  ∀ (s : State) (k : Nat) (c : Ctx) (d : Word) (i : Instr), s.Acting k c → c.op = .idle →
    (i = .wrOffsetNs d ∨ i = .wrOffsetSecLo d ∨ i = .wrOffsetSecHi d ∨ i = .wrIncrement d ∨ i = .wrIntStatus 1) →
    ∃ t, exec i s = .next t ∧ exec i t = .next t

/-! ### Counter and composition -/

/-- Rule R130: the tick adds `INC` to the counter, with one carry into the 64-bit seconds at 10^9 ns, and changes nothing
else. Rests on the spec's own choice D10. -/
def Obligations.TickAdvancesTheCounter : Prop :=
  ∀ (s : State),
    (s.ctrNsfx + s.inc.toNat < 1000000000 * 1048576 →
      exec .tick s = .next { s with ctrNsfx := s.ctrNsfx + s.inc.toNat }) ∧
    (1000000000 * 1048576 ≤ s.ctrNsfx + s.inc.toNat →
      exec .tick s = .next { s with
        ctrNsfx := s.ctrNsfx + s.inc.toNat - 1000000000 * 1048576
        ctrSec := s.ctrSec + 1 })

/-- Rules R130, R131, R135: `n` ticks advance the counter by exactly `n * INC` units, fraction kept, seconds modulo
2^64. Rests on the spec's own choices D9, D10. -/
def Obligations.TicksAccumulateExactly : Prop :=
  ∀ (s : State) (n : Nat) (rest : List Entry), s.ctrNsfx < 1000000000 * 1048576 →
    s.schedule = List.replicate n (.issue .tb [0xC0]) ++ rest →
    ∃ t, stepN n s = some t ∧
      t = { s with
        ctrNsfx := (s.ctrNsfx + n * s.inc.toNat) % (1000000000 * 1048576)
        ctrSec := s.ctrSec + BitVec.ofNat 64 ((s.ctrNsfx + n * s.inc.toNat) / (1000000000 * 1048576))
        schedule := rest
        actor := t.actor }

/-- Rule R141: the low 32 seconds bits of the composed time are the sum of the low words and the carry; they do not depend
on the high words; and an offset whose seconds are `low32` of a number moves them by that number modulo 2^32. Rests on the
spec's own choices D9 (the composition's carry and 64-bit seconds, log 20) and D22 (`low32`, log 32). -/
def Obligations.LowSecondsAreExactModulo32 : Prop :=
  (∀ (s : State), s.offNs.toNat < 1000000000 →
    s.curSec.extractLsb' 0 32 =
      s.ctrSec.extractLsb' 0 32 + s.offSec.extractLsb' 0 32 + BitVec.ofNat 32 s.nsCarry) ∧
  (∀ (s t : State), s.offNs.toNat < 1000000000 → t.offNs = s.offNs → t.ctrNsfx = s.ctrNsfx →
    t.ctrSec.extractLsb' 0 32 = s.ctrSec.extractLsb' 0 32 →
    t.offSec.extractLsb' 0 32 = s.offSec.extractLsb' 0 32 →
    t.curSec.extractLsb' 0 32 = s.curSec.extractLsb' 0 32) ∧
  (∀ (s t : State) (x : Int), t.offNs = s.offNs → t.ctrNsfx = s.ctrNsfx → t.ctrSec = s.ctrSec →
    s.offSec = 0 → t.offSec = (low32 x).setWidth 64 →
    t.curSec.extractLsb' 0 32 = s.curSec.extractLsb' 0 32 + BitVec.ofInt 32 x)

/-! ### The frequency controller -/

/-- Rule R160: `adjust_frequency` by an idle caller writes `low32(NOMINAL ± floor(NOMINAL * |ppb| / 10^9))` to INCREMENT
in its one step and returns `Ok` (`sp` is 0 then, log 37, DESIGN CHOICE); nothing else changes, the guard is not taken
(rule R162). Rests on the spec's own choices D18, D22, D26. -/
def Obligations.AdjustFrequencyWritesTheTrim : Prop :=
  ∀ (s : State) (k : Nat) (c : Ctx) (ppb : Word) (delta : Int), s.Acting k c → c.op = .idle →
    delta = ((s.params.clkPeriod * 1048576 * ppb.toInt.natAbs / 1000000000 : Nat) : Int) →
    exec (.adjFreq ppb) s = .next { s with
      inc := BitVec.ofInt 32 (if ppb.toInt < 0 then ((s.params.clkPeriod * 1048576 : Nat) : Int) - delta
        else ((s.params.clkPeriod * 1048576 : Nat) : Int) + delta)
      callers := s.callers.set k { c with sp := 0, result := some .ok } }

/-- Rule R161 (a), (b), (d): a zero trim is `NOMINAL`; opposite trims are symmetric around it; within the advertised range
the trim is positive and below `2 * NOMINAL`, and fits 32 bits when `CLK_PERIOD <= 2048`. Rests on the spec's own
choices D22, D25. -/
def Obligations.TrimIsSymmetricAndBounded : Prop :=
  ∀ (p : Params) (ppb : Int), p.Legal →
    freqIncrement p.nominal 0 = p.nominal ∧
    (freqIncrement p.nominal ppb - p.nominal = -(freqIncrement p.nominal (-ppb) - p.nominal)) ∧
    (ppb.natAbs ≤ 999999999 →
      0 < freqIncrement p.nominal ppb ∧ freqIncrement p.nominal ppb < 2 * p.nominal ∧
      (p.clkPeriod ≤ 2048 → freqIncrement p.nominal ppb < 4294967296 ∧
        ((low32 (freqIncrement p.nominal ppb)).toNat : Int) = freqIncrement p.nominal ppb))

/-! ### The guard and the time controller -/

/-- Rules R77, R170: at the first step of a guarded operation `LOCK_ACQ` takes the free guard and the caller goes on to step
1; while the guard is held it holds (log 3, DESIGN CHOICE). At the last step `LOCK_REL` by the holder frees it and the
operation returns (`sp` is 0 then, log 37); by a caller that does not hold the guard it is refused (log 14). Anywhere else,
and by a caller with no operation in progress, neither is a step of the spec, and each is refused (log 16, DESIGN CHOICE).
Rests on the spec's own choice D28. -/
def Obligations.GuardIsTakenFreeAndHeldOtherwise : Prop :=
  ∀ (s : State) (k : Nat) (c : Ctx), s.Acting k c →
    (c.op ≠ .idle → c.sp = 0 →
      (s.lock = none → exec .lockAcq s = .next { s with
        lock := some k, callers := s.callers.set k { c with sp := 1 } }) ∧
      (∀ j, s.lock = some j → exec .lockAcq s = .next s)) ∧
    (c.op ≠ .idle → c.sp = c.lastStep →
      (s.lock = some k → exec .lockRel s = .next { s with
        lock := none
        callers := s.callers.set k { c with
          op := .idle, sp := 0, result := some (if c.op = .getTime then .okTime c.tv else .ok) } }) ∧
      (s.lock ≠ some k → exec .lockRel s = .refused .guardNotHeld)) ∧
    (c.op = .idle ∨ c.sp ≠ 0 → exec .lockAcq s = .refused .outOfSequence) ∧
    (c.op = .idle ∨ c.sp ≠ c.lastStep → exec .lockRel s = .refused .outOfSequence)

/-- Rules R171, R172, R173, R175: a guarded operation started by an idle caller is in progress after its first step, inside
the guard if it was free and waiting for it at step 0 if not; nothing else changes. That its key takes the first step at
once is log 4, that a hold is a next state is log 3 (both DESIGN CHOICE). -/
def Obligations.GuardedOperationsStartWithTheGuard : Prop :=
  ∀ (s : State) (k : Nat) (c : Ctx) (i : Instr) (op : Op), s.Acting k c → c.op = .idle →
    ((i = .getTime ∧ op = .getTime) ∨
      (∃ target : TV, 0 ≤ target.sec ∧ target.sec < 9223372036854775808 ∧ NsInRange target ∧
        i = .setTime target ∧ op = .setTime target) ∨
      (∃ d, i = .adjTime d ∧ op = .adjTime d)) →
    (s.lock = none → exec i s = .next { s with
      lock := some k, callers := s.callers.set k { c with op := op, sp := 1 } }) ∧
    (∀ j, s.lock = some j → exec i s = .next { s with
      callers := s.callers.set k { c with op := op, sp := 0 } })

/-- Rule R75 (with R74): a `SET_TIME` whose target is outside its range is refused in every state. Rests on the
spec's own choice D17. -/
def Obligations.SetTimeOutOfRangeIsRefused : Prop :=
  ∀ (s : State) (target : TV),
    (target.sec < 0 ∨ 9223372036854775808 ≤ target.sec ∨ target.ns < 0 ∨ 1000000000 ≤ target.ns) →
    exec (.setTime target) s = .refused .badOperand

/-- Rule R172: run alone from an idle caller with the guard free (its later steps by the `go` entries of log 4, DESIGN CHOICE),
`get_time` is four steps and returns the composed time, its seconds cut to 32 bits; nothing else changes. While
`OFF_NS >= 10^9` the two reads are two draws (rule R133; log 7), and it returns those. Rests on the spec's own choices
D9, D12. -/
def Obligations.GetTimeReturnsTheComposedTime : Prop :=
  ∀ (s : State) (k : Nat) (c : Ctx) (rest : List Entry),
    s.attached = true → s.callers[k]? = some c → c.op = .idle → s.lock = none →
    s.schedule = .issue (.caller k) [0x80] :: .go k :: .go k :: .go k :: rest →
    ∃ t c', stepN 4 s = some t ∧ c'.op = .idle ∧
      t = { s with draws := t.draws, callers := s.callers.set k c', schedule := rest, actor := .caller k } ∧
      (s.ctrNsfx < 1000000000 * 1048576 → s.offNs.toNat < 1000000000 →
        t.draws = s.draws ∧
        c'.result = some (.okTime ⟨((s.curSec.toNat % 4294967296 : Nat) : Int), (s.curNs : Int)⟩)) ∧
      (1000000000 ≤ s.offNs.toNat →
        t.draws = s.draws + 2 ∧
        c'.result = some (.okTime ⟨((Config.freeWord (s.draws + 1)).toNat : Int), ((Config.freeWord s.draws).toNat : Int)⟩))

/-- Rules R173, R138: run alone from an idle caller with the guard free (its later steps by the `go` entries of log 4, DESIGN
CHOICE), `set_time` is ten steps; it leaves the offset `target - raw`, or (0, 0) when the seconds of that are not
positive, where raw is the counter's own time; it returns `Ok` and frees the guard; counter and increment are unchanged.
Rests on the spec's own choices D20, D21, D22. -/
def Obligations.SetTimeWritesTheClampedDelta : Prop :=
  ∀ (s : State) (k : Nat) (c : Ctx) (target d : TV) (rest : List Entry),
    s.attached = true → s.callers[k]? = some c → c.op = .idle → s.lock = none →
    s.ctrNsfx < 1000000000 * 1048576 →
    0 ≤ target.sec → target.sec < 9223372036854775808 → NsInRange target →
    d = tvSub target ⟨((s.ctrSec.toNat % 4294967296 : Nat) : Int), ((s.ctrNsfx / 1048576 : Nat) : Int)⟩ →
    s.schedule = issueOf (.caller k) (.setTime target) :: (List.replicate 9 (.go k) ++ rest) →
    ∃ t c', stepN 10 s = some t ∧
      t = { s with
        offNs := if d.sec ≤ 0 then 0 else low32 d.ns
        offSec := if d.sec ≤ 0 then 0 else (low32 d.sec).setWidth 64
        stgSecLo := if d.sec ≤ 0 then 0 else low32 d.sec
        stgSecHi := 0
        callers := s.callers.set k c'
        schedule := rest
        actor := .caller k } ∧
      c'.op = .idle ∧ c'.result = some .ok

/-- Rules R174 (b), R179 (c): after such a `set_time` (log 4) whose target is at least one second ahead of the counter, the
clock reads the target, its seconds modulo 2^32; with a target less than that ahead (or behind) it reads the counter
(R174 (a)). Rests on the spec's own choices D20, D21. -/
def Obligations.SetTimeForwardReadsTheTarget : Prop :=
  ∀ (s t : State) (k : Nat) (c : Ctx) (target : TV) (rest : List Entry),
    s.attached = true → s.callers[k]? = some c → c.op = .idle → s.lock = none →
    s.ctrNsfx < 1000000000 * 1048576 →
    0 ≤ target.sec → target.sec < 9223372036854775808 → NsInRange target →
    s.schedule = issueOf (.caller k) (.setTime target) :: (List.replicate 9 (.go k) ++ rest) →
    stepN 10 s = some t →
    (tvTotal ⟨((s.ctrSec.toNat % 4294967296 : Nat) : Int), ((s.ctrNsfx / 1048576 : Nat) : Int)⟩ + 1000000000 ≤
        tvTotal target →
      (t.curNs : Int) = target.ns ∧ ((t.curSec.toNat : Int) - target.sec) % 4294967296 = 0) ∧
    (tvTotal target <
        tvTotal ⟨((s.ctrSec.toNat % 4294967296 : Nat) : Int), ((s.ctrNsfx / 1048576 : Nat) : Int)⟩ + 1000000000 →
      t.curNs = s.ctrNsfx / 1048576 ∧ t.curSec = s.ctrSec)

/-- Rules R176, R179 (b): run alone (its later steps by the `go` entries of log 4, DESIGN CHOICE), the coarse path of
`adjust_time` is seven steps; the new offset is the old one plus `delta_ns`, seconds modulo 2^32, where the old seconds
are the word the read of OFFSET_SEC_LO gives: the active word, or the staged one while they differ, picked by a draw (rule
R104; log 8, DESIGN CHOICE); INCREMENT and the counter are unchanged. Rests on the spec's own choices D8, D19, D21, D22. -/
def Obligations.AdjustTimeCoarseAddsToTheOffset : Prop :=
  ∀ (s : State) (k : Nat) (c : Ctx) (delta : DWord) (rest : List Entry),
    s.attached = true → s.callers[k]? = some c → c.op = .idle → s.lock = none →
    0x3FFFFFFF < delta.toInt.natAbs →
    s.schedule = issueOf (.caller k) (.adjTime delta) :: (List.replicate 6 (.go k) ++ rest) →
    ∃ (t : State) (c' : Ctx) (old : Word), stepN 7 s = some t ∧
      (old = s.offSec.extractLsb' 0 32 ∨ old = s.stgSecLo) ∧
      t = { s with
        offNs := t.offNs, offSec := t.offSec, stgSecLo := t.stgSecLo, stgSecHi := 0
        draws := s.draws + (if s.stgSecLo = s.offSec.extractLsb' 0 32 then 0 else 1)
        callers := s.callers.set k c', schedule := rest, actor := .caller k } ∧
      c'.op = .idle ∧ c'.result = some .ok ∧
      t.offNs.toNat < 1000000000 ∧ t.offSec.toNat < 4294967296 ∧ t.stgSecLo = t.offSec.extractLsb' 0 32 ∧
      ((t.offSec.toNat : Int) * 1000000000 + t.offNs.toNat -
        ((old.toNat : Int) * 1000000000 + s.offNs.toNat + delta.toInt)) % (4294967296 * 1000000000) = 0

/-- Rules R177, R178 (a), R179 (a): run alone (its later steps by the `go` entries of log 4, DESIGN CHOICE), the fine path of
`adjust_time` is three steps and writes `low32(NOMINAL + delta_ns)` to INCREMENT; the offset registers are untouched
(`sp` is 0 at the end, log 37, DESIGN CHOICE). Rests on the spec's own choices D13, D22. -/
def Obligations.AdjustTimeFineNudgesTheIncrement : Prop :=
  ∀ (s : State) (k : Nat) (c : Ctx) (delta : DWord) (rest : List Entry),
    s.attached = true → s.callers[k]? = some c → c.op = .idle → s.lock = none →
    delta.toInt.natAbs ≤ 0x3FFFFFFF →
    s.schedule = issueOf (.caller k) (.adjTime delta) :: .go k :: .go k :: rest →
    stepN 3 s = some { s with
      inc := BitVec.ofInt 32 (((s.params.clkPeriod * 1048576 : Nat) : Int) + delta.toInt)
      callers := s.callers.set k { c with sp := 0, result := some .ok }
      schedule := rest
      actor := .caller k }

/-- Rule R180: while a caller is inside `get_time`, the active offset changes only by a direct bus write of OFFSET_NS by a
caller with no operation in progress (rule R245), or by a power cycle: never part-way through a `set_time` or an
`adjust_time`. -/
def Obligations.GetTimeSeesNoTornOffset : Prop :=
  ∀ (s t : State) (j : Nat) (c : Ctx), s.Inv → s.callers[j]? = some c → c.op = .getTime → c.Inside →
    step s = .next t → (t.offNs ≠ s.offNs ∨ t.offSec ≠ s.offSec) →
    (∃ rest, s.schedule = .powerCycle :: rest) ∨
    (∃ d u k c', s.fetch = .run (.wrOffsetNs d) u ∧ u.actor = .caller k ∧ s.callers[k]? = some c' ∧ c'.op = .idle)

/-- Rule R125: in a state that meets the invariant, with the core attached, no step of the core is refused: not the next step
of a caller's operation; not the start of a host operation by an idle caller, its operands in their domains (a target out
of range is rule R75's); not the handler's acknowledgment, key 0x60 with 0x00000001. So a run of the core alone does not
set `REFUSED`. Each answers a next state: a hold too (log 3), and the start takes the operation's first step (log 4; both
DESIGN CHOICE). -/
def Obligations.CoreSequencesAreNeverRefused : Prop :=
  ∀ (s : State) (rest : List Entry), s.Inv → s.attached = true →
    (∀ k c, s.callers[k]? = some c → s.schedule = .go k :: rest → ∃ t, step s = .next t) ∧
    (∀ k c i, s.callers[k]? = some c → c.op = .idle → i.wellFormed = true →
      (i = .getTime ∨ (∃ target, i = .setTime target) ∨ (∃ d, i = .adjTime d) ∨ (∃ ppb, i = .adjFreq ppb) ∨
        ∃ req, i = .enable req) →
      s.schedule = issueOf (.caller k) i :: rest → ∃ t, step s = .next t) ∧
    (s.schedule = .issue .ih [0x60, 0x00, 0x00, 0x00, 0x01] :: rest → ∃ t, step s = .next t)

/-- Rules R37, R62, R170: given a turn (a `go` entry, log 4), a caller inside an operation, or waiting at step 0 with the guard
free, moves to the next step of its sequence or returns at the last one; waiting with the guard held it stays where it is
(a hold, log 3; both DESIGN CHOICE). Rests on the spec's own choice D28. -/
def Obligations.OperationsAdvanceUnlessWaiting : Prop :=
  ∀ (s t : State) (k : Nat) (c : Ctx) (rest : List Entry), s.Inv → s.attached = true →
    s.callers[k]? = some c → c.op ≠ .idle → s.schedule = .go k :: rest → step s = .next t →
    ∃ c', t.callers[k]? = some c' ∧
      ((1 ≤ c.sp ∨ s.lock = none) →
        (c.sp < c.lastStep ∧ c'.op = c.op ∧ c'.sp = c.sp + 1) ∨
        (c.sp = c.lastStep ∧ c'.op = .idle ∧ c'.result.isSome = true ∧ t.lock = none)) ∧
      (c.sp = 0 ∧ s.lock ≠ none → c' = c ∧ t.lock = s.lock)

/-- Rule R133 (with R138): the core's own sequences only write an OFFSET_NS below `NSEC_PER_SEC`. -/
def Obligations.CoreWritesOffsetNsInRange : Prop :=
  ∀ (s : State) (k : Nat) (c : Ctx) (d : Word), s.Inv → s.callers[k]? = some c →
    c.nextInstr s.params = some (.wrOffsetNs d) → d.toNat < 1000000000

/-! ### Pulse converter and enable control -/

/-- Rules R190, R191: key 0xC1 is the pulse; it is always enabled, sets `INT_PEND` and changes nothing else; while the bit is
set a pulse changes nothing. Rests on the spec's own choices D14 (always enabled, log 33) and D29 (the key). -/
def Obligations.PulseSetsPend : Prop :=
  decode [0xC1] = .ok (.pulse, []) ∧
  ∀ (s : State), exec .pulse s = .next { s with intPend := true } ∧
    (s.intPend = true → exec .pulse s = .next s) ∧
    (∀ rest, s.schedule = .issue .ps [0xC1] :: rest →
      step s = .next { s with intPend := true, schedule := rest, actor := .ps })

/-- Rules R193, R194 (two steps of the handler, the spec's own choice, D35): the handler's entry, when it is enabled, counts,
wraps at the 128th and emits an event there exactly if PPS is enabled and the device registered. When it is not enabled,
and for the acknowledgment while the handler is idle, the handler has no step (a hold, log 3). -/
def Obligations.HandlerEntryCounts : Prop :=
  ∀ (s : State),
    (s.intPend = true → s.ihState = .idle → s.attached = true →
      (s.pulseCount + 1 < 128 → exec .ihEntry s = .next { s with
        pulseCount := s.pulseCount + 1, ihState := .entered }) ∧
      (128 ≤ s.pulseCount + 1 → exec .ihEntry s = .next { s with
        pulseCount := 0
        events := s.events ++ (if s.ppsEnabled = true ∧ s.registered = true then [.pps] else [])
        ihState := .entered })) ∧
    ((s.intPend = false ∨ s.ihState = .entered ∨ s.attached = false) → exec .ihEntry s = .next s) ∧
    (s.actor = .ih → s.ihState = .idle → exec (.wrIntStatus 1) s = .next s)

/-- Rule R194: the handler's acknowledgment, key 0x60 with 0x00000001 (as operand bytes: log 1, DESIGN CHOICE), enabled while
the handler is entered, clears `INT_PEND` and leaves the handler idle; nothing else changes. Rests on the spec's own
choice D35 (the handler is two steps, log 30). -/
def Obligations.HandlerAcknowledges : Prop :=
  decode [0x60, 0x00, 0x00, 0x00, 0x01] = .ok (.wrIntStatus 1, []) ∧
  ∀ (s : State), s.actor = .ih → s.ihState = .entered →
    exec (.wrIntStatus 1) s = .next { s with intPend := false, ihState := .idle }

/-- Rule R198: after `k` complete handler services the count is `(p + k) mod 128`, and `floor((p + k) / 128)` events have
been emitted if PPS is enabled and the device registered throughout, none otherwise. Rests on the spec's own choice
D35. -/
def Obligations.ServicesEmitOneEventPer128 : Prop :=
  ∀ (s : State) (k : Nat) (rest : List Entry), s.pulseCount < 128 → s.ihState = .idle → s.attached = true →
    s.schedule = serviceRounds k ++ rest →
    ∃ t, stepN (3 * k) s = some t ∧
      t = { s with
        intPend := if k = 0 then s.intPend else false
        pulseCount := (s.pulseCount + k) % 128
        events := s.events ++
          List.replicate (if s.ppsEnabled = true ∧ s.registered = true then (s.pulseCount + k) / 128 else 0) .pps
        schedule := rest
        actor := t.actor }

/-- Rule R199: pulses merge before the entry, and one between entry and acknowledgment is cleared uncounted: three pulses,
one count, nothing pending. -/
def Obligations.PulsesAreLost : Prop :=
  ∀ (s : State) (rest : List Entry), s.ihState = .idle → s.attached = true → s.pulseCount + 1 < 128 →
    s.schedule = .issue .ps [0xC1] :: .issue .ps [0xC1] :: .issue .ih [0xC2] :: .issue .ps [0xC1] ::
      .issue .ih [0x60, 0x00, 0x00, 0x00, 0x01] :: rest →
    stepN 5 s = some { s with
      intPend := false, pulseCount := s.pulseCount + 1, schedule := rest, actor := .ih }

/-- Rule R196: `enable` by an idle caller with the PPS kind sets `PPS_ENABLED` and returns `Ok`; with any other kind it
returns `Unsupported` and changes nothing (`sp` is 0 after it, log 37, DESIGN CHOICE). Rests on the spec's own choices
D26, D27. -/
def Obligations.EnableSetsPpsOnly : Prop :=
  ∀ (s : State) (k : Nat) (c : Ctx) (req : Nat), s.Acting k c → c.op = .idle →
    (req = s.params.kindPps → exec (.enable req) s = .next { s with
      ppsEnabled := true, callers := s.callers.set k { c with sp := 0, result := some .ok } }) ∧
    (req ≠ s.params.kindPps → exec (.enable req) s = .next { s with
      callers := s.callers.set k { c with sp := 0, result := some .unsupported } })

/-- Rule R197: `REGISTER` sets `REGISTERED`, `DEREGISTER` clears it, and the host can take either at any time while the
core is attached. Rests on the spec's own choice D37. -/
def Obligations.HostRegistersAtAnyTime : Prop :=
  ∀ (s : State) (rest : List Entry),
    (exec .register s = .next { s with registered := true } ∧
      exec .deregister s = .next { s with registered := false }) ∧
    (s.attached = true →
      (s.schedule = .issue .host [0xC3] :: rest →
        step s = .next { s with registered := true, schedule := rest, actor := .host }) ∧
      (s.schedule = .issue .host [0xC4] :: rest →
        step s = .next { s with registered := false, schedule := rest, actor := .host }))

/-! ### Whole-machine rules -/

/-- Rules R23 to R28, R30 to R32, R34 to R36, R38: each element is changed only by the steps the spec names, whatever the
instruction and the state; the parameters and the mark `REFUSED` by none (log 5), the model's schedule and actor by no
instruction (log 2, log 10). So for every step of the machine: it runs an instruction that writes what it changes, or it
is a detach, a power cycle, or the turn of an idle caller, which changes nothing (log 3, log 17, log 36). Rests on the
spec's own choice D1. -/
def Obligations.OnlyNamedStepsWriteEachElement : Prop :=
  (∀ (i : Instr) (s t : State), exec i s = .next t →
    ChangedOnlyBy i s t ∧ t.schedule = s.schedule ∧ t.actor = s.actor) ∧
  (∀ (s t : State), step s = .next t →
    (∃ i u, s.fetch = .run i u ∧ ChangedOnlyBy i s t) ∨
    (∃ rest, s.schedule = .detach :: rest ∧ t = { s with registered := false, attached := false, schedule := rest }) ∨
    (∃ rest, s.schedule = .powerCycle :: rest ∧ t.refused = s.refused ∧ t.params = s.params) ∨
    (∃ k rest, s.schedule = .go k :: rest ∧ t = { s with schedule := rest }))

/-- Rule R37: a caller's context is private. No step but a power cycle changes the context of a caller that is not acting, nor
the number of callers; a power cycle makes every context idle (rule R41; log 9, DESIGN CHOICE) and keeps their number. -/
def Obligations.ContextsArePrivate : Prop :=
  (∀ (i : Instr) (s t : State), exec i s = .next t →
    t.callers.length = s.callers.length ∧ ∀ j, s.actor ≠ .caller j → t.callers[j]? = s.callers[j]?) ∧
  (∀ (s t : State), step s = .next t →
    (∃ rest, s.schedule = .powerCycle :: rest ∧
      (s.callers ≠ [] → t.callers.length = s.callers.length) ∧ ∀ c ∈ t.callers, c = Ctx.idle) ∨
    ((∀ rest, s.schedule ≠ .powerCycle :: rest) ∧
      t.callers.length = s.callers.length ∧ ∀ j, t.actor ≠ .caller j → t.callers[j]? = s.callers[j]?))

/-- Rule R200: the handler and the callers do not disturb each other. Two states that differ only in what the handler owns
(`PULSE_COUNT`, `INT_PEND`, `ih_state`, `EVENTS`) answer every step of a caller alike, but for the caller's own direct
accesses to INT_STATUS: the callers' contexts, so the results too, and the rest of the block come out equal, and what the
handler owns stays as it was in each. -/
def Obligations.CallerStepsIgnoreTheHandler : Prop :=
  ∀ (i : Instr) (k : Nat) (s t s' : State), Agent.has (.caller k) i = true → i ≠ .rdIntStatus →
    (∀ d, i ≠ .wrIntStatus d) →
    t = { s with pulseCount := t.pulseCount, intPend := t.intPend, ihState := t.ihState, events := t.events } →
    exec i s = .next s' →
    s'.pulseCount = s.pulseCount ∧ s'.intPend = s.intPend ∧ s'.ihState = s.ihState ∧ s'.events = s.events ∧
    exec i t = .next { s' with
      pulseCount := t.pulseCount, intPend := t.intPend, ihState := t.ihState, events := t.events }

/-- Rules R17, R36: the mark `REFUSED` is set exactly by a refused step, and no step clears it. Rests on the spec's
own choice D1. -/
def Obligations.RefusedMarkIsSetOnceAndKept : Prop :=
  ∀ (s : State),
    ((∃ r, step s = .refused r) → (settle s).refused = true) ∧
    ((∀ r, step s ≠ .refused r) → (settle s).refused = s.refused)

/-- Rule R42: after detach no agent but `TB` and `PS` has a step, and those two still have theirs, with their effect (rules
R130, R190). Detach itself deregisters and detaches in one step (log 17, DEDUCED: rule R241 gives an order of two), at any
entry, and leaves everything else as it was (log 36, DESIGN CHOICE). Rests on the spec's own choices D10, D34. -/
def Obligations.AfterDetachOnlyTickAndPulse : Prop :=
  (∀ (s u : State) (i : Instr), s.attached = false → s.fetch = .run i u → i = .tick ∨ i = .pulse) ∧
  (∀ (s : State) (rest : List Entry), s.attached = false →
    (s.schedule = .issue .tb [0xC0] :: rest →
      (s.ctrNsfx + s.inc.toNat < 1000000000 * 1048576 → step s = .next { s with
        ctrNsfx := s.ctrNsfx + s.inc.toNat, schedule := rest, actor := .tb }) ∧
      (1000000000 * 1048576 ≤ s.ctrNsfx + s.inc.toNat → step s = .next { s with
        ctrNsfx := s.ctrNsfx + s.inc.toNat - 1000000000 * 1048576
        ctrSec := s.ctrSec + 1
        schedule := rest
        actor := .tb })) ∧
    (s.schedule = .issue .ps [0xC1] :: rest →
      step s = .next { s with intPend := true, schedule := rest, actor := .ps })) ∧
  (∀ (s : State) (rest : List Entry), s.schedule = .detach :: rest →
    step s = .next { s with registered := false, attached := false, schedule := rest })

/-- Rules R40, R41, R43: a power cycle gives every hardware element its reset parameter again and every core element its
attach value (the mark, the parameters, the draws and the schedule are no clock state, log 18). Rests on the spec's
own choices D23, D24, D31. -/
def Obligations.PowerCycleRestoresResetAndAttach : Prop :=
  ∀ (s : State) (rest : List Entry), s.schedule = .powerCycle :: rest →
    ∃ t, step s = .next t ∧
      t.ctrSec = s.params.rstCtrSec ∧ t.ctrNsfx = s.params.rstCtrNsfx ∧ t.inc = s.params.rstInc ∧
      t.offNs = s.params.rstOffNs ∧ t.offSec = s.params.rstOffSec ∧
      t.stgSecHi ++ t.stgSecLo = s.params.rstOffSec ∧ t.intPend = s.params.rstIntPend ∧
      t.pulseCount = 0 ∧ t.ppsEnabled = false ∧ t.lock = none ∧ t.registered = false ∧ t.events = [] ∧
      t.ihState = .idle ∧ t.attached = true ∧ (∀ c ∈ t.callers, c.op = .idle) ∧
      t.params = s.params ∧ t.schedule = rest ∧ t.refused = s.refused

/-- Rules R40, R41, R240: at reset every core element has its attach value, the staging registers equal the active offset,
and every register of the block is the open parameter of rule R40 (log 5, log 6). Rests on the spec's own choices
D23, D24. -/
def Obligations.ResetHoldsTheAttachValues : Prop :=
  State.reset.pulseCount = 0 ∧ State.reset.ppsEnabled = false ∧ State.reset.lock = none ∧
  State.reset.registered = false ∧ State.reset.events = [] ∧ State.reset.refused = false ∧
  (∀ c ∈ State.reset.callers, c.op = .idle) ∧ State.reset.ihState = .idle ∧
  State.reset.stgSecHi ++ State.reset.stgSecLo = State.reset.offSec ∧
  State.reset.ctrSec = Config.rstCtrSec ∧ State.reset.ctrNsfx = Config.rstCtrNsfx.val ∧
  State.reset.inc = Config.rstInc ∧ State.reset.offNs = Config.rstOffNs ∧ State.reset.offSec = Config.rstOffSec ∧
  State.reset.intPend = Config.rstIntPend

/-- The invariant holds at reset (rules R11, R24, R30, R41). Rests on the spec's own choice D24. -/
def Obligations.ResetMeetsTheInvariant : Prop := State.reset.Inv

/-- Rules R24, R30, R32, R37, R66, R77, R170, R171: every step keeps the invariant, from every state that meets it: the counter
and the count stay in range, every operation stays in its sequence, a caller inside a guarded operation holds the guard,
and the guard is held by no one else. -/
def Obligations.StepKeepsTheInvariant : Prop := ∀ (s t : State), s.Inv → step s = .next t → t.Inv

/-- Rules R66, R171: in a state that meets the invariant no two callers are inside guarded operations. -/
def Obligations.GuardedOperationsExcludeEachOther : Prop :=
  ∀ (s : State) (j k : Nat) (c d : Ctx), s.Inv → s.callers[j]? = some c → s.callers[k]? = some d →
    c.Inside → d.Inside → j = k

/-- Rules R253, R42: with no entry left the run has ended exactly if every caller is idle and the handler is idle, or the
core is detached; in any other state it has not, the schedule was cut short there. That the end is a fault of the model's
own is log 15 (DESIGN CHOICE). Rests on the spec's own choice D34. -/
def Obligations.RunEndsOnlyWhenQuiet : Prop :=
  ∀ (s : State),
    (step s = .fault .runEnded ↔
      s.schedule = [] ∧ (s.attached = false ∨ ((∀ c ∈ s.callers, c.op = .idle) ∧ s.ihState = .idle))) ∧
    (step s = .fault .scheduleCut ↔
      s.schedule = [] ∧ s.attached = true ∧ ((∃ c ∈ s.callers, c.op ≠ .idle) ∨ s.ihState = .entered))

/-- Rules R52, R53, R14, R100: a four-byte host-bus read of a register, by a caller that has the step now, leaves the
register's word with the caller (`rdata`, log 11, DESIGN CHOICE), and the bytes at `BASE + A` to `BASE + A + 3` are that
word's, most significant first; nothing of the block changes. A host that reads CUR_NS = 999999999 reads 0x3B, 0x9A, 0xC9,
0xFF. Rests on the spec's own choices D3, D9, D11. -/
def Obligations.HostReadsCarryTheBytes : Prop :=
  ∀ (s : State) (k : Nat) (c : Ctx) (r : Reg) (rest : List Entry),
    s.attached = true → s.callers[k]? = some c → s.breaksOrder (.caller k) r.readInstr = false →
    s.schedule = .bus (.caller k) (.read (s.params.base + r.offset.toNat) 4) :: rest →
    ∃ (c' : Ctx) (w : Word), w = s.regValue r ∧
      step s = .next { s with
        draws := s.draws + (s.regDraws r).toNat
        callers := s.callers.set k c'
        schedule := rest
        actor := .caller k } ∧
      c'.rdata = w ∧
      c'.busBytes = [w.extractLsb' 24 8, w.extractLsb' 16 8, w.extractLsb' 8 8, w.extractLsb' 0 8] ∧
      (r = .curNs → s.curDefined = true → s.curNs = 999999999 → c'.busBytes = [0x3B, 0x9A, 0xC9, 0xFF])
end

