-- ==== Sys2Proof/Laws/Decode.lean ====
section
/-! SUPPORT. Small lemmas of the byte helpers and the encoder: bytes of a word read back, and the operands behind a key. -/

namespace Sys2Proof

/-- The high word of two words joined. -/
theorem extract_hi_append (hi lo : Word) : (hi ++ lo : DWord).extractLsb' 32 32 = hi := by
  apply BitVec.eq_of_getLsbD_eq
  intro i hi'
  have h := BitVec.getLsbD_append (x := hi) (y := lo) (i := 32 + i)
  simp only [BitVec.getLsbD_extractLsb', hi', decide_true, Bool.true_and]
  rw [h]
  simp

/-- The low word of two words joined. -/
theorem extract_lo_append (hi lo : Word) : (hi ++ lo : DWord).extractLsb' 0 32 = lo := by
  apply BitVec.eq_of_getLsbD_eq
  intro i hi'
  have h := BitVec.getLsbD_append (x := hi) (y := lo) (i := 0 + i)
  simp only [BitVec.getLsbD_extractLsb', hi', decide_true, Bool.true_and]
  rw [h]
  simp [hi']

/-- A 64-bit word is its two words joined. -/
theorem append_extract (w : DWord) : (w.extractLsb' 32 32 ++ w.extractLsb' 0 32 : DWord) = w := by
  apply BitVec.eq_of_getLsbD_eq
  intro i hi
  have h := BitVec.getLsbD_append (x := w.extractLsb' 32 32) (y := w.extractLsb' 0 32) (i := i)
  rw [h]
  simp only [BitVec.getLsbD_extractLsb']
  split
  · simp_all
  · have : 32 + (i - 32) = i := by omega
    have : i - 32 < 32 := by omega
    simp_all

/-- Reading back the four bytes of a word gives the word (rule R52). -/
@[simp] theorem takeWord_wordBytes (w : Word) (rest : List Byte) :
    takeWord (wordBytes w ++ rest) = some (w, rest) := by
  have h : w.extractLsb' 24 8 ++ w.extractLsb' 16 8 ++ w.extractLsb' 8 8 ++ w.extractLsb' 0 8 = w := by
    apply BitVec.eq_of_getLsbD_eq
    intro i hi
    simp only [BitVec.getLsbD_append, BitVec.getLsbD_extractLsb']
    split
    · simp_all
    · split
      · have : 8 + (i - 8) = i := by omega
        simp_all
      · split
        · have : 16 + (i - 8 - 8) = i := by omega
          have : i - 8 - 8 < 8 := by omega
          simp_all
        · have : 24 + (i - 8 - 8 - 8) = i := by omega
          have : i - 8 - 8 - 8 < 8 := by omega
          simp_all
  simp [wordBytes, takeWord, h]

@[simp] theorem takeWord_wordBytes_nil (w : Word) : takeWord (wordBytes w) = some (w, []) := by
  simpa using takeWord_wordBytes w []

/-- Reading back the eight bytes of a 64-bit word gives the word. -/
@[simp] theorem takeDWord_dwordBytes (w : DWord) (rest : List Byte) :
    takeDWord (dwordBytes w ++ rest) = some (w, rest) := by
  simp [dwordBytes, takeDWord, List.append_assoc, append_extract]

/-- The bytes a word was read from are the bytes of that word. -/
theorem wordBytes_of_takeWord {bs rest : List Byte} {w : Word} (h : takeWord bs = some (w, rest)) :
    wordBytes w ++ rest = bs := by
  match bs, h with
  | b3 :: b2 :: b1 :: b0 :: tl, h =>
    simp only [takeWord, Option.some.injEq, Prod.mk.injEq] at h
    obtain ⟨rfl, rfl⟩ := h
    simp only [wordBytes, List.cons_append, List.nil_append, List.cons.injEq, and_true]
    refine ⟨?_, ?_, ?_, ?_⟩ <;>
    · apply BitVec.eq_of_getLsbD_eq
      intro i hi
      have : i ≠ 8 + i := by omega
      simp only [BitVec.getLsbD_extractLsb', BitVec.getLsbD_append, hi, decide_true, Bool.true_and]
      repeat' (split <;> try omega)
      all_goals congr 1 <;> omega

/-- The bytes a 64-bit word was read from are the bytes of that word. -/
theorem dwordBytes_of_takeDWord {bs rest : List Byte} {w : DWord} (h : takeDWord bs = some (w, rest)) :
    dwordBytes w ++ rest = bs := by
  unfold takeDWord at h
  split at h
  · cases h
  · rename_i hi bs1 h1
    split at h
    · cases h
    · rename_i lo bs2 h2
      simp only [Option.some.injEq, Prod.mk.injEq] at h
      obtain ⟨rfl, rfl⟩ := h
      rw [dwordBytes, extract_hi_append, extract_lo_append, List.append_assoc, wordBytes_of_takeWord h2, wordBytes_of_takeWord h1]

@[simp] theorem wordBytes_length (w : Word) : (wordBytes w).length = 4 := rfl

@[simp] theorem dwordBytes_length (w : DWord) : (dwordBytes w).length = 8 := by simp [dwordBytes]

/-- The register at a register's offset is that register (rule R72). -/
@[simp] theorem Reg.ofOffset_offset (r : Reg) : Reg.ofOffset r.offset = some r := by
  cases r <;> rfl

end Sys2Proof
end

