-- ==== Sys2Proof/Laws/State.lean ====
section
/-! SUPPORT. One lemma per field per update of State, so that no proof unfolds an update to read a field. -/

namespace Sys2Proof.Machine


/-! ### raisePulse -/

@[simp] theorem State.raisePulse_ctrSec (s : State) : s.raisePulse.ctrSec = s.ctrSec := rfl
@[simp] theorem State.raisePulse_ctrNsfx (s : State) : s.raisePulse.ctrNsfx = s.ctrNsfx := rfl
@[simp] theorem State.raisePulse_inc (s : State) : s.raisePulse.inc = s.inc := rfl
@[simp] theorem State.raisePulse_offNs (s : State) : s.raisePulse.offNs = s.offNs := rfl
@[simp] theorem State.raisePulse_offSec (s : State) : s.raisePulse.offSec = s.offSec := rfl
@[simp] theorem State.raisePulse_stgSecLo (s : State) : s.raisePulse.stgSecLo = s.stgSecLo := rfl
@[simp] theorem State.raisePulse_stgSecHi (s : State) : s.raisePulse.stgSecHi = s.stgSecHi := rfl
@[simp] theorem State.raisePulse_intPend (s : State) : s.raisePulse.intPend = true := rfl
@[simp] theorem State.raisePulse_pulseCount (s : State) : s.raisePulse.pulseCount = s.pulseCount := rfl
@[simp] theorem State.raisePulse_ppsEnabled (s : State) : s.raisePulse.ppsEnabled = s.ppsEnabled := rfl
@[simp] theorem State.raisePulse_lock (s : State) : s.raisePulse.lock = s.lock := rfl
@[simp] theorem State.raisePulse_registered (s : State) : s.raisePulse.registered = s.registered := rfl
@[simp] theorem State.raisePulse_events (s : State) : s.raisePulse.events = s.events := rfl
@[simp] theorem State.raisePulse_refused (s : State) : s.raisePulse.refused = s.refused := rfl
@[simp] theorem State.raisePulse_ihState (s : State) : s.raisePulse.ihState = s.ihState := rfl
@[simp] theorem State.raisePulse_attached (s : State) : s.raisePulse.attached = s.attached := rfl
@[simp] theorem State.raisePulse_callers (s : State) : s.raisePulse.callers = s.callers := rfl
@[simp] theorem State.raisePulse_params (s : State) : s.raisePulse.params = s.params := rfl
@[simp] theorem State.raisePulse_draws (s : State) : s.raisePulse.draws = s.draws := rfl
@[simp] theorem State.raisePulse_schedule (s : State) : s.raisePulse.schedule = s.schedule := rfl
@[simp] theorem State.raisePulse_actor (s : State) : s.raisePulse.actor = s.actor := rfl

/-! ### clearPend -/

@[simp] theorem State.clearPend_ctrSec (d : Word) (s : State) : (s.clearPend d).ctrSec = s.ctrSec := rfl
@[simp] theorem State.clearPend_ctrNsfx (d : Word) (s : State) : (s.clearPend d).ctrNsfx = s.ctrNsfx := rfl
@[simp] theorem State.clearPend_inc (d : Word) (s : State) : (s.clearPend d).inc = s.inc := rfl
@[simp] theorem State.clearPend_offNs (d : Word) (s : State) : (s.clearPend d).offNs = s.offNs := rfl
@[simp] theorem State.clearPend_offSec (d : Word) (s : State) : (s.clearPend d).offSec = s.offSec := rfl
@[simp] theorem State.clearPend_stgSecLo (d : Word) (s : State) : (s.clearPend d).stgSecLo = s.stgSecLo := rfl
@[simp] theorem State.clearPend_stgSecHi (d : Word) (s : State) : (s.clearPend d).stgSecHi = s.stgSecHi := rfl
@[simp] theorem State.clearPend_intPend (d : Word) (s : State) : (s.clearPend d).intPend = (s.intPend && !(d.getLsbD 0)) := rfl
@[simp] theorem State.clearPend_pulseCount (d : Word) (s : State) : (s.clearPend d).pulseCount = s.pulseCount := rfl
@[simp] theorem State.clearPend_ppsEnabled (d : Word) (s : State) : (s.clearPend d).ppsEnabled = s.ppsEnabled := rfl
@[simp] theorem State.clearPend_lock (d : Word) (s : State) : (s.clearPend d).lock = s.lock := rfl
@[simp] theorem State.clearPend_registered (d : Word) (s : State) : (s.clearPend d).registered = s.registered := rfl
@[simp] theorem State.clearPend_events (d : Word) (s : State) : (s.clearPend d).events = s.events := rfl
@[simp] theorem State.clearPend_refused (d : Word) (s : State) : (s.clearPend d).refused = s.refused := rfl
@[simp] theorem State.clearPend_ihState (d : Word) (s : State) : (s.clearPend d).ihState = s.ihState := rfl
@[simp] theorem State.clearPend_attached (d : Word) (s : State) : (s.clearPend d).attached = s.attached := rfl
@[simp] theorem State.clearPend_callers (d : Word) (s : State) : (s.clearPend d).callers = s.callers := rfl
@[simp] theorem State.clearPend_params (d : Word) (s : State) : (s.clearPend d).params = s.params := rfl
@[simp] theorem State.clearPend_draws (d : Word) (s : State) : (s.clearPend d).draws = s.draws := rfl
@[simp] theorem State.clearPend_schedule (d : Word) (s : State) : (s.clearPend d).schedule = s.schedule := rfl
@[simp] theorem State.clearPend_actor (d : Word) (s : State) : (s.clearPend d).actor = s.actor := rfl

/-! ### enablePps -/

@[simp] theorem State.enablePps_ctrSec (req : Nat) (s : State) : (s.enablePps req).ctrSec = s.ctrSec := rfl
@[simp] theorem State.enablePps_ctrNsfx (req : Nat) (s : State) : (s.enablePps req).ctrNsfx = s.ctrNsfx := rfl
@[simp] theorem State.enablePps_inc (req : Nat) (s : State) : (s.enablePps req).inc = s.inc := rfl
@[simp] theorem State.enablePps_offNs (req : Nat) (s : State) : (s.enablePps req).offNs = s.offNs := rfl
@[simp] theorem State.enablePps_offSec (req : Nat) (s : State) : (s.enablePps req).offSec = s.offSec := rfl
@[simp] theorem State.enablePps_stgSecLo (req : Nat) (s : State) : (s.enablePps req).stgSecLo = s.stgSecLo := rfl
@[simp] theorem State.enablePps_stgSecHi (req : Nat) (s : State) : (s.enablePps req).stgSecHi = s.stgSecHi := rfl
@[simp] theorem State.enablePps_intPend (req : Nat) (s : State) : (s.enablePps req).intPend = s.intPend := rfl
@[simp] theorem State.enablePps_pulseCount (req : Nat) (s : State) : (s.enablePps req).pulseCount = s.pulseCount := rfl
@[simp] theorem State.enablePps_ppsEnabled (req : Nat) (s : State) : (s.enablePps req).ppsEnabled = (s.ppsEnabled || req == s.params.kindPps) := rfl
@[simp] theorem State.enablePps_lock (req : Nat) (s : State) : (s.enablePps req).lock = s.lock := rfl
@[simp] theorem State.enablePps_registered (req : Nat) (s : State) : (s.enablePps req).registered = s.registered := rfl
@[simp] theorem State.enablePps_events (req : Nat) (s : State) : (s.enablePps req).events = s.events := rfl
@[simp] theorem State.enablePps_refused (req : Nat) (s : State) : (s.enablePps req).refused = s.refused := rfl
@[simp] theorem State.enablePps_ihState (req : Nat) (s : State) : (s.enablePps req).ihState = s.ihState := rfl
@[simp] theorem State.enablePps_attached (req : Nat) (s : State) : (s.enablePps req).attached = s.attached := rfl
@[simp] theorem State.enablePps_callers (req : Nat) (s : State) : (s.enablePps req).callers = s.callers := rfl
@[simp] theorem State.enablePps_params (req : Nat) (s : State) : (s.enablePps req).params = s.params := rfl
@[simp] theorem State.enablePps_draws (req : Nat) (s : State) : (s.enablePps req).draws = s.draws := rfl
@[simp] theorem State.enablePps_schedule (req : Nat) (s : State) : (s.enablePps req).schedule = s.schedule := rfl
@[simp] theorem State.enablePps_actor (req : Nat) (s : State) : (s.enablePps req).actor = s.actor := rfl

/-! ### takeDraw -/

@[simp] theorem State.takeDraw_ctrSec (b : Bool) (s : State) : (s.takeDraw b).ctrSec = s.ctrSec := rfl
@[simp] theorem State.takeDraw_ctrNsfx (b : Bool) (s : State) : (s.takeDraw b).ctrNsfx = s.ctrNsfx := rfl
@[simp] theorem State.takeDraw_inc (b : Bool) (s : State) : (s.takeDraw b).inc = s.inc := rfl
@[simp] theorem State.takeDraw_offNs (b : Bool) (s : State) : (s.takeDraw b).offNs = s.offNs := rfl
@[simp] theorem State.takeDraw_offSec (b : Bool) (s : State) : (s.takeDraw b).offSec = s.offSec := rfl
@[simp] theorem State.takeDraw_stgSecLo (b : Bool) (s : State) : (s.takeDraw b).stgSecLo = s.stgSecLo := rfl
@[simp] theorem State.takeDraw_stgSecHi (b : Bool) (s : State) : (s.takeDraw b).stgSecHi = s.stgSecHi := rfl
@[simp] theorem State.takeDraw_intPend (b : Bool) (s : State) : (s.takeDraw b).intPend = s.intPend := rfl
@[simp] theorem State.takeDraw_pulseCount (b : Bool) (s : State) : (s.takeDraw b).pulseCount = s.pulseCount := rfl
@[simp] theorem State.takeDraw_ppsEnabled (b : Bool) (s : State) : (s.takeDraw b).ppsEnabled = s.ppsEnabled := rfl
@[simp] theorem State.takeDraw_lock (b : Bool) (s : State) : (s.takeDraw b).lock = s.lock := rfl
@[simp] theorem State.takeDraw_registered (b : Bool) (s : State) : (s.takeDraw b).registered = s.registered := rfl
@[simp] theorem State.takeDraw_events (b : Bool) (s : State) : (s.takeDraw b).events = s.events := rfl
@[simp] theorem State.takeDraw_refused (b : Bool) (s : State) : (s.takeDraw b).refused = s.refused := rfl
@[simp] theorem State.takeDraw_ihState (b : Bool) (s : State) : (s.takeDraw b).ihState = s.ihState := rfl
@[simp] theorem State.takeDraw_attached (b : Bool) (s : State) : (s.takeDraw b).attached = s.attached := rfl
@[simp] theorem State.takeDraw_callers (b : Bool) (s : State) : (s.takeDraw b).callers = s.callers := rfl
@[simp] theorem State.takeDraw_params (b : Bool) (s : State) : (s.takeDraw b).params = s.params := rfl
@[simp] theorem State.takeDraw_draws (b : Bool) (s : State) : (s.takeDraw b).draws = s.draws + b.toNat := rfl
@[simp] theorem State.takeDraw_schedule (b : Bool) (s : State) : (s.takeDraw b).schedule = s.schedule := rfl
@[simp] theorem State.takeDraw_actor (b : Bool) (s : State) : (s.takeDraw b).actor = s.actor := rfl

/-! ### commitOffset -/

@[simp] theorem State.commitOffset_ctrSec (d : Word) (s : State) : (s.commitOffset d).ctrSec = s.ctrSec := rfl
@[simp] theorem State.commitOffset_ctrNsfx (d : Word) (s : State) : (s.commitOffset d).ctrNsfx = s.ctrNsfx := rfl
@[simp] theorem State.commitOffset_inc (d : Word) (s : State) : (s.commitOffset d).inc = s.inc := rfl
@[simp] theorem State.commitOffset_offNs (d : Word) (s : State) : (s.commitOffset d).offNs = d := rfl
@[simp] theorem State.commitOffset_offSec (d : Word) (s : State) : (s.commitOffset d).offSec = s.stgSecHi ++ s.stgSecLo := rfl
@[simp] theorem State.commitOffset_stgSecLo (d : Word) (s : State) : (s.commitOffset d).stgSecLo = s.stgSecLo := rfl
@[simp] theorem State.commitOffset_stgSecHi (d : Word) (s : State) : (s.commitOffset d).stgSecHi = s.stgSecHi := rfl
@[simp] theorem State.commitOffset_intPend (d : Word) (s : State) : (s.commitOffset d).intPend = s.intPend := rfl
@[simp] theorem State.commitOffset_pulseCount (d : Word) (s : State) : (s.commitOffset d).pulseCount = s.pulseCount := rfl
@[simp] theorem State.commitOffset_ppsEnabled (d : Word) (s : State) : (s.commitOffset d).ppsEnabled = s.ppsEnabled := rfl
@[simp] theorem State.commitOffset_lock (d : Word) (s : State) : (s.commitOffset d).lock = s.lock := rfl
@[simp] theorem State.commitOffset_registered (d : Word) (s : State) : (s.commitOffset d).registered = s.registered := rfl
@[simp] theorem State.commitOffset_events (d : Word) (s : State) : (s.commitOffset d).events = s.events := rfl
@[simp] theorem State.commitOffset_refused (d : Word) (s : State) : (s.commitOffset d).refused = s.refused := rfl
@[simp] theorem State.commitOffset_ihState (d : Word) (s : State) : (s.commitOffset d).ihState = s.ihState := rfl
@[simp] theorem State.commitOffset_attached (d : Word) (s : State) : (s.commitOffset d).attached = s.attached := rfl
@[simp] theorem State.commitOffset_callers (d : Word) (s : State) : (s.commitOffset d).callers = s.callers := rfl
@[simp] theorem State.commitOffset_params (d : Word) (s : State) : (s.commitOffset d).params = s.params := rfl
@[simp] theorem State.commitOffset_draws (d : Word) (s : State) : (s.commitOffset d).draws = s.draws := rfl
@[simp] theorem State.commitOffset_schedule (d : Word) (s : State) : (s.commitOffset d).schedule = s.schedule := rfl
@[simp] theorem State.commitOffset_actor (d : Word) (s : State) : (s.commitOffset d).actor = s.actor := rfl

/-! ### stageSecLo -/

@[simp] theorem State.stageSecLo_ctrSec (d : Word) (s : State) : (s.stageSecLo d).ctrSec = s.ctrSec := rfl
@[simp] theorem State.stageSecLo_ctrNsfx (d : Word) (s : State) : (s.stageSecLo d).ctrNsfx = s.ctrNsfx := rfl
@[simp] theorem State.stageSecLo_inc (d : Word) (s : State) : (s.stageSecLo d).inc = s.inc := rfl
@[simp] theorem State.stageSecLo_offNs (d : Word) (s : State) : (s.stageSecLo d).offNs = s.offNs := rfl
@[simp] theorem State.stageSecLo_offSec (d : Word) (s : State) : (s.stageSecLo d).offSec = s.offSec := rfl
@[simp] theorem State.stageSecLo_stgSecLo (d : Word) (s : State) : (s.stageSecLo d).stgSecLo = d := rfl
@[simp] theorem State.stageSecLo_stgSecHi (d : Word) (s : State) : (s.stageSecLo d).stgSecHi = s.stgSecHi := rfl
@[simp] theorem State.stageSecLo_intPend (d : Word) (s : State) : (s.stageSecLo d).intPend = s.intPend := rfl
@[simp] theorem State.stageSecLo_pulseCount (d : Word) (s : State) : (s.stageSecLo d).pulseCount = s.pulseCount := rfl
@[simp] theorem State.stageSecLo_ppsEnabled (d : Word) (s : State) : (s.stageSecLo d).ppsEnabled = s.ppsEnabled := rfl
@[simp] theorem State.stageSecLo_lock (d : Word) (s : State) : (s.stageSecLo d).lock = s.lock := rfl
@[simp] theorem State.stageSecLo_registered (d : Word) (s : State) : (s.stageSecLo d).registered = s.registered := rfl
@[simp] theorem State.stageSecLo_events (d : Word) (s : State) : (s.stageSecLo d).events = s.events := rfl
@[simp] theorem State.stageSecLo_refused (d : Word) (s : State) : (s.stageSecLo d).refused = s.refused := rfl
@[simp] theorem State.stageSecLo_ihState (d : Word) (s : State) : (s.stageSecLo d).ihState = s.ihState := rfl
@[simp] theorem State.stageSecLo_attached (d : Word) (s : State) : (s.stageSecLo d).attached = s.attached := rfl
@[simp] theorem State.stageSecLo_callers (d : Word) (s : State) : (s.stageSecLo d).callers = s.callers := rfl
@[simp] theorem State.stageSecLo_params (d : Word) (s : State) : (s.stageSecLo d).params = s.params := rfl
@[simp] theorem State.stageSecLo_draws (d : Word) (s : State) : (s.stageSecLo d).draws = s.draws := rfl
@[simp] theorem State.stageSecLo_schedule (d : Word) (s : State) : (s.stageSecLo d).schedule = s.schedule := rfl
@[simp] theorem State.stageSecLo_actor (d : Word) (s : State) : (s.stageSecLo d).actor = s.actor := rfl

/-! ### stageSecHi -/

@[simp] theorem State.stageSecHi_ctrSec (d : Word) (s : State) : (s.stageSecHi d).ctrSec = s.ctrSec := rfl
@[simp] theorem State.stageSecHi_ctrNsfx (d : Word) (s : State) : (s.stageSecHi d).ctrNsfx = s.ctrNsfx := rfl
@[simp] theorem State.stageSecHi_inc (d : Word) (s : State) : (s.stageSecHi d).inc = s.inc := rfl
@[simp] theorem State.stageSecHi_offNs (d : Word) (s : State) : (s.stageSecHi d).offNs = s.offNs := rfl
@[simp] theorem State.stageSecHi_offSec (d : Word) (s : State) : (s.stageSecHi d).offSec = s.offSec := rfl
@[simp] theorem State.stageSecHi_stgSecLo (d : Word) (s : State) : (s.stageSecHi d).stgSecLo = s.stgSecLo := rfl
@[simp] theorem State.stageSecHi_stgSecHi (d : Word) (s : State) : (s.stageSecHi d).stgSecHi = d := rfl
@[simp] theorem State.stageSecHi_intPend (d : Word) (s : State) : (s.stageSecHi d).intPend = s.intPend := rfl
@[simp] theorem State.stageSecHi_pulseCount (d : Word) (s : State) : (s.stageSecHi d).pulseCount = s.pulseCount := rfl
@[simp] theorem State.stageSecHi_ppsEnabled (d : Word) (s : State) : (s.stageSecHi d).ppsEnabled = s.ppsEnabled := rfl
@[simp] theorem State.stageSecHi_lock (d : Word) (s : State) : (s.stageSecHi d).lock = s.lock := rfl
@[simp] theorem State.stageSecHi_registered (d : Word) (s : State) : (s.stageSecHi d).registered = s.registered := rfl
@[simp] theorem State.stageSecHi_events (d : Word) (s : State) : (s.stageSecHi d).events = s.events := rfl
@[simp] theorem State.stageSecHi_refused (d : Word) (s : State) : (s.stageSecHi d).refused = s.refused := rfl
@[simp] theorem State.stageSecHi_ihState (d : Word) (s : State) : (s.stageSecHi d).ihState = s.ihState := rfl
@[simp] theorem State.stageSecHi_attached (d : Word) (s : State) : (s.stageSecHi d).attached = s.attached := rfl
@[simp] theorem State.stageSecHi_callers (d : Word) (s : State) : (s.stageSecHi d).callers = s.callers := rfl
@[simp] theorem State.stageSecHi_params (d : Word) (s : State) : (s.stageSecHi d).params = s.params := rfl
@[simp] theorem State.stageSecHi_draws (d : Word) (s : State) : (s.stageSecHi d).draws = s.draws := rfl
@[simp] theorem State.stageSecHi_schedule (d : Word) (s : State) : (s.stageSecHi d).schedule = s.schedule := rfl
@[simp] theorem State.stageSecHi_actor (d : Word) (s : State) : (s.stageSecHi d).actor = s.actor := rfl

/-! ### writeInc -/

@[simp] theorem State.writeInc_ctrSec (d : Word) (s : State) : (s.writeInc d).ctrSec = s.ctrSec := rfl
@[simp] theorem State.writeInc_ctrNsfx (d : Word) (s : State) : (s.writeInc d).ctrNsfx = s.ctrNsfx := rfl
@[simp] theorem State.writeInc_inc (d : Word) (s : State) : (s.writeInc d).inc = d := rfl
@[simp] theorem State.writeInc_offNs (d : Word) (s : State) : (s.writeInc d).offNs = s.offNs := rfl
@[simp] theorem State.writeInc_offSec (d : Word) (s : State) : (s.writeInc d).offSec = s.offSec := rfl
@[simp] theorem State.writeInc_stgSecLo (d : Word) (s : State) : (s.writeInc d).stgSecLo = s.stgSecLo := rfl
@[simp] theorem State.writeInc_stgSecHi (d : Word) (s : State) : (s.writeInc d).stgSecHi = s.stgSecHi := rfl
@[simp] theorem State.writeInc_intPend (d : Word) (s : State) : (s.writeInc d).intPend = s.intPend := rfl
@[simp] theorem State.writeInc_pulseCount (d : Word) (s : State) : (s.writeInc d).pulseCount = s.pulseCount := rfl
@[simp] theorem State.writeInc_ppsEnabled (d : Word) (s : State) : (s.writeInc d).ppsEnabled = s.ppsEnabled := rfl
@[simp] theorem State.writeInc_lock (d : Word) (s : State) : (s.writeInc d).lock = s.lock := rfl
@[simp] theorem State.writeInc_registered (d : Word) (s : State) : (s.writeInc d).registered = s.registered := rfl
@[simp] theorem State.writeInc_events (d : Word) (s : State) : (s.writeInc d).events = s.events := rfl
@[simp] theorem State.writeInc_refused (d : Word) (s : State) : (s.writeInc d).refused = s.refused := rfl
@[simp] theorem State.writeInc_ihState (d : Word) (s : State) : (s.writeInc d).ihState = s.ihState := rfl
@[simp] theorem State.writeInc_attached (d : Word) (s : State) : (s.writeInc d).attached = s.attached := rfl
@[simp] theorem State.writeInc_callers (d : Word) (s : State) : (s.writeInc d).callers = s.callers := rfl
@[simp] theorem State.writeInc_params (d : Word) (s : State) : (s.writeInc d).params = s.params := rfl
@[simp] theorem State.writeInc_draws (d : Word) (s : State) : (s.writeInc d).draws = s.draws := rfl
@[simp] theorem State.writeInc_schedule (d : Word) (s : State) : (s.writeInc d).schedule = s.schedule := rfl
@[simp] theorem State.writeInc_actor (d : Word) (s : State) : (s.writeInc d).actor = s.actor := rfl

/-! ### release -/

@[simp] theorem State.release_ctrSec (k : Nat) (s : State) : (s.release k).ctrSec = s.ctrSec := rfl
@[simp] theorem State.release_ctrNsfx (k : Nat) (s : State) : (s.release k).ctrNsfx = s.ctrNsfx := rfl
@[simp] theorem State.release_inc (k : Nat) (s : State) : (s.release k).inc = s.inc := rfl
@[simp] theorem State.release_offNs (k : Nat) (s : State) : (s.release k).offNs = s.offNs := rfl
@[simp] theorem State.release_offSec (k : Nat) (s : State) : (s.release k).offSec = s.offSec := rfl
@[simp] theorem State.release_stgSecLo (k : Nat) (s : State) : (s.release k).stgSecLo = s.stgSecLo := rfl
@[simp] theorem State.release_stgSecHi (k : Nat) (s : State) : (s.release k).stgSecHi = s.stgSecHi := rfl
@[simp] theorem State.release_intPend (k : Nat) (s : State) : (s.release k).intPend = s.intPend := rfl
@[simp] theorem State.release_pulseCount (k : Nat) (s : State) : (s.release k).pulseCount = s.pulseCount := rfl
@[simp] theorem State.release_ppsEnabled (k : Nat) (s : State) : (s.release k).ppsEnabled = s.ppsEnabled := rfl
@[simp] theorem State.release_lock (k : Nat) (s : State) : (s.release k).lock = none := rfl
@[simp] theorem State.release_registered (k : Nat) (s : State) : (s.release k).registered = s.registered := rfl
@[simp] theorem State.release_events (k : Nat) (s : State) : (s.release k).events = s.events := rfl
@[simp] theorem State.release_refused (k : Nat) (s : State) : (s.release k).refused = s.refused := rfl
@[simp] theorem State.release_ihState (k : Nat) (s : State) : (s.release k).ihState = s.ihState := rfl
@[simp] theorem State.release_attached (k : Nat) (s : State) : (s.release k).attached = s.attached := rfl
@[simp] theorem State.release_callers (k : Nat) (s : State) : (s.release k).callers = s.callers.modify k (Ctx.after s.params .lockRel 0) := rfl
@[simp] theorem State.release_params (k : Nat) (s : State) : (s.release k).params = s.params := rfl
@[simp] theorem State.release_draws (k : Nat) (s : State) : (s.release k).draws = s.draws := rfl
@[simp] theorem State.release_schedule (k : Nat) (s : State) : (s.release k).schedule = s.schedule := rfl
@[simp] theorem State.release_actor (k : Nat) (s : State) : (s.release k).actor = s.actor := rfl

/-! ### returnTo -/

@[simp] theorem State.returnTo_ctrSec (k : Nat) (r : Result) (s : State) : (s.returnTo k r).ctrSec = s.ctrSec := rfl
@[simp] theorem State.returnTo_ctrNsfx (k : Nat) (r : Result) (s : State) : (s.returnTo k r).ctrNsfx = s.ctrNsfx := rfl
@[simp] theorem State.returnTo_inc (k : Nat) (r : Result) (s : State) : (s.returnTo k r).inc = s.inc := rfl
@[simp] theorem State.returnTo_offNs (k : Nat) (r : Result) (s : State) : (s.returnTo k r).offNs = s.offNs := rfl
@[simp] theorem State.returnTo_offSec (k : Nat) (r : Result) (s : State) : (s.returnTo k r).offSec = s.offSec := rfl
@[simp] theorem State.returnTo_stgSecLo (k : Nat) (r : Result) (s : State) : (s.returnTo k r).stgSecLo = s.stgSecLo := rfl
@[simp] theorem State.returnTo_stgSecHi (k : Nat) (r : Result) (s : State) : (s.returnTo k r).stgSecHi = s.stgSecHi := rfl
@[simp] theorem State.returnTo_intPend (k : Nat) (r : Result) (s : State) : (s.returnTo k r).intPend = s.intPend := rfl
@[simp] theorem State.returnTo_pulseCount (k : Nat) (r : Result) (s : State) : (s.returnTo k r).pulseCount = s.pulseCount := rfl
@[simp] theorem State.returnTo_ppsEnabled (k : Nat) (r : Result) (s : State) : (s.returnTo k r).ppsEnabled = s.ppsEnabled := rfl
@[simp] theorem State.returnTo_lock (k : Nat) (r : Result) (s : State) : (s.returnTo k r).lock = s.lock := rfl
@[simp] theorem State.returnTo_registered (k : Nat) (r : Result) (s : State) : (s.returnTo k r).registered = s.registered := rfl
@[simp] theorem State.returnTo_events (k : Nat) (r : Result) (s : State) : (s.returnTo k r).events = s.events := rfl
@[simp] theorem State.returnTo_refused (k : Nat) (r : Result) (s : State) : (s.returnTo k r).refused = s.refused := rfl
@[simp] theorem State.returnTo_ihState (k : Nat) (r : Result) (s : State) : (s.returnTo k r).ihState = s.ihState := rfl
@[simp] theorem State.returnTo_attached (k : Nat) (r : Result) (s : State) : (s.returnTo k r).attached = s.attached := rfl
@[simp] theorem State.returnTo_callers (k : Nat) (r : Result) (s : State) : (s.returnTo k r).callers = s.callers.modify k (Ctx.ret r) := rfl
@[simp] theorem State.returnTo_params (k : Nat) (r : Result) (s : State) : (s.returnTo k r).params = s.params := rfl
@[simp] theorem State.returnTo_draws (k : Nat) (r : Result) (s : State) : (s.returnTo k r).draws = s.draws := rfl
@[simp] theorem State.returnTo_schedule (k : Nat) (r : Result) (s : State) : (s.returnTo k r).schedule = s.schedule := rfl
@[simp] theorem State.returnTo_actor (k : Nat) (r : Result) (s : State) : (s.returnTo k r).actor = s.actor := rfl

/-! ### detach -/

@[simp] theorem State.detach_ctrSec (s : State) : s.detach.ctrSec = s.ctrSec := rfl
@[simp] theorem State.detach_ctrNsfx (s : State) : s.detach.ctrNsfx = s.ctrNsfx := rfl
@[simp] theorem State.detach_inc (s : State) : s.detach.inc = s.inc := rfl
@[simp] theorem State.detach_offNs (s : State) : s.detach.offNs = s.offNs := rfl
@[simp] theorem State.detach_offSec (s : State) : s.detach.offSec = s.offSec := rfl
@[simp] theorem State.detach_stgSecLo (s : State) : s.detach.stgSecLo = s.stgSecLo := rfl
@[simp] theorem State.detach_stgSecHi (s : State) : s.detach.stgSecHi = s.stgSecHi := rfl
@[simp] theorem State.detach_intPend (s : State) : s.detach.intPend = s.intPend := rfl
@[simp] theorem State.detach_pulseCount (s : State) : s.detach.pulseCount = s.pulseCount := rfl
@[simp] theorem State.detach_ppsEnabled (s : State) : s.detach.ppsEnabled = s.ppsEnabled := rfl
@[simp] theorem State.detach_lock (s : State) : s.detach.lock = s.lock := rfl
@[simp] theorem State.detach_registered (s : State) : s.detach.registered = false := rfl
@[simp] theorem State.detach_events (s : State) : s.detach.events = s.events := rfl
@[simp] theorem State.detach_refused (s : State) : s.detach.refused = s.refused := rfl
@[simp] theorem State.detach_ihState (s : State) : s.detach.ihState = s.ihState := rfl
@[simp] theorem State.detach_attached (s : State) : s.detach.attached = false := rfl
@[simp] theorem State.detach_callers (s : State) : s.detach.callers = s.callers := rfl
@[simp] theorem State.detach_params (s : State) : s.detach.params = s.params := rfl
@[simp] theorem State.detach_draws (s : State) : s.detach.draws = s.draws := rfl
@[simp] theorem State.detach_schedule (s : State) : s.detach.schedule = s.schedule := rfl
@[simp] theorem State.detach_actor (s : State) : s.detach.actor = s.actor := rfl

/-! ### refuse -/

@[simp] theorem State.refuse_ctrSec (s : State) : s.refuse.ctrSec = s.ctrSec := rfl
@[simp] theorem State.refuse_ctrNsfx (s : State) : s.refuse.ctrNsfx = s.ctrNsfx := rfl
@[simp] theorem State.refuse_inc (s : State) : s.refuse.inc = s.inc := rfl
@[simp] theorem State.refuse_offNs (s : State) : s.refuse.offNs = s.offNs := rfl
@[simp] theorem State.refuse_offSec (s : State) : s.refuse.offSec = s.offSec := rfl
@[simp] theorem State.refuse_stgSecLo (s : State) : s.refuse.stgSecLo = s.stgSecLo := rfl
@[simp] theorem State.refuse_stgSecHi (s : State) : s.refuse.stgSecHi = s.stgSecHi := rfl
@[simp] theorem State.refuse_intPend (s : State) : s.refuse.intPend = s.intPend := rfl
@[simp] theorem State.refuse_pulseCount (s : State) : s.refuse.pulseCount = s.pulseCount := rfl
@[simp] theorem State.refuse_ppsEnabled (s : State) : s.refuse.ppsEnabled = s.ppsEnabled := rfl
@[simp] theorem State.refuse_lock (s : State) : s.refuse.lock = s.lock := rfl
@[simp] theorem State.refuse_registered (s : State) : s.refuse.registered = s.registered := rfl
@[simp] theorem State.refuse_events (s : State) : s.refuse.events = s.events := rfl
@[simp] theorem State.refuse_refused (s : State) : s.refuse.refused = true := rfl
@[simp] theorem State.refuse_ihState (s : State) : s.refuse.ihState = s.ihState := rfl
@[simp] theorem State.refuse_attached (s : State) : s.refuse.attached = s.attached := rfl
@[simp] theorem State.refuse_callers (s : State) : s.refuse.callers = s.callers := rfl
@[simp] theorem State.refuse_params (s : State) : s.refuse.params = s.params := rfl
@[simp] theorem State.refuse_draws (s : State) : s.refuse.draws = s.draws := rfl
@[simp] theorem State.refuse_schedule (s : State) : s.refuse.schedule = s.schedule := rfl
@[simp] theorem State.refuse_actor (s : State) : s.refuse.actor = s.actor := rfl

/-! ### onActor: the fields it leaves alone -/

@[simp] theorem State.onActor_ctrSec (f : Ctx → Ctx) (s : State) : (s.onActor f).ctrSec = s.ctrSec := by
  unfold State.onActor; split <;> rfl
@[simp] theorem State.onActor_ctrNsfx (f : Ctx → Ctx) (s : State) : (s.onActor f).ctrNsfx = s.ctrNsfx := by
  unfold State.onActor; split <;> rfl
@[simp] theorem State.onActor_inc (f : Ctx → Ctx) (s : State) : (s.onActor f).inc = s.inc := by
  unfold State.onActor; split <;> rfl
@[simp] theorem State.onActor_offNs (f : Ctx → Ctx) (s : State) : (s.onActor f).offNs = s.offNs := by
  unfold State.onActor; split <;> rfl
@[simp] theorem State.onActor_offSec (f : Ctx → Ctx) (s : State) : (s.onActor f).offSec = s.offSec := by
  unfold State.onActor; split <;> rfl
@[simp] theorem State.onActor_stgSecLo (f : Ctx → Ctx) (s : State) : (s.onActor f).stgSecLo = s.stgSecLo := by
  unfold State.onActor; split <;> rfl
@[simp] theorem State.onActor_stgSecHi (f : Ctx → Ctx) (s : State) : (s.onActor f).stgSecHi = s.stgSecHi := by
  unfold State.onActor; split <;> rfl
@[simp] theorem State.onActor_intPend (f : Ctx → Ctx) (s : State) : (s.onActor f).intPend = s.intPend := by
  unfold State.onActor; split <;> rfl
@[simp] theorem State.onActor_pulseCount (f : Ctx → Ctx) (s : State) : (s.onActor f).pulseCount = s.pulseCount := by
  unfold State.onActor; split <;> rfl
@[simp] theorem State.onActor_ppsEnabled (f : Ctx → Ctx) (s : State) : (s.onActor f).ppsEnabled = s.ppsEnabled := by
  unfold State.onActor; split <;> rfl
@[simp] theorem State.onActor_lock (f : Ctx → Ctx) (s : State) : (s.onActor f).lock = s.lock := by
  unfold State.onActor; split <;> rfl
@[simp] theorem State.onActor_registered (f : Ctx → Ctx) (s : State) : (s.onActor f).registered = s.registered := by
  unfold State.onActor; split <;> rfl
@[simp] theorem State.onActor_events (f : Ctx → Ctx) (s : State) : (s.onActor f).events = s.events := by
  unfold State.onActor; split <;> rfl
@[simp] theorem State.onActor_refused (f : Ctx → Ctx) (s : State) : (s.onActor f).refused = s.refused := by
  unfold State.onActor; split <;> rfl
@[simp] theorem State.onActor_ihState (f : Ctx → Ctx) (s : State) : (s.onActor f).ihState = s.ihState := by
  unfold State.onActor; split <;> rfl
@[simp] theorem State.onActor_attached (f : Ctx → Ctx) (s : State) : (s.onActor f).attached = s.attached := by
  unfold State.onActor; split <;> rfl
@[simp] theorem State.onActor_params (f : Ctx → Ctx) (s : State) : (s.onActor f).params = s.params := by
  unfold State.onActor; split <;> rfl
@[simp] theorem State.onActor_draws (f : Ctx → Ctx) (s : State) : (s.onActor f).draws = s.draws := by
  unfold State.onActor; split <;> rfl
@[simp] theorem State.onActor_schedule (f : Ctx → Ctx) (s : State) : (s.onActor f).schedule = s.schedule := by
  unfold State.onActor; split <;> rfl
@[simp] theorem State.onActor_actor (f : Ctx → Ctx) (s : State) : (s.onActor f).actor = s.actor := by
  unfold State.onActor; split <;> rfl

/-! ### wrote: the fields it leaves alone -/

@[simp] theorem State.wrote_ctrSec (i : Instr) (s : State) : (s.wrote i).ctrSec = s.ctrSec := by
  simp [State.wrote]
@[simp] theorem State.wrote_ctrNsfx (i : Instr) (s : State) : (s.wrote i).ctrNsfx = s.ctrNsfx := by
  simp [State.wrote]
@[simp] theorem State.wrote_inc (i : Instr) (s : State) : (s.wrote i).inc = s.inc := by
  simp [State.wrote]
@[simp] theorem State.wrote_offNs (i : Instr) (s : State) : (s.wrote i).offNs = s.offNs := by
  simp [State.wrote]
@[simp] theorem State.wrote_offSec (i : Instr) (s : State) : (s.wrote i).offSec = s.offSec := by
  simp [State.wrote]
@[simp] theorem State.wrote_stgSecLo (i : Instr) (s : State) : (s.wrote i).stgSecLo = s.stgSecLo := by
  simp [State.wrote]
@[simp] theorem State.wrote_stgSecHi (i : Instr) (s : State) : (s.wrote i).stgSecHi = s.stgSecHi := by
  simp [State.wrote]
@[simp] theorem State.wrote_intPend (i : Instr) (s : State) : (s.wrote i).intPend = s.intPend := by
  simp [State.wrote]
@[simp] theorem State.wrote_pulseCount (i : Instr) (s : State) : (s.wrote i).pulseCount = s.pulseCount := by
  simp [State.wrote]
@[simp] theorem State.wrote_ppsEnabled (i : Instr) (s : State) : (s.wrote i).ppsEnabled = s.ppsEnabled := by
  simp [State.wrote]
@[simp] theorem State.wrote_lock (i : Instr) (s : State) : (s.wrote i).lock = s.lock := by
  simp [State.wrote]
@[simp] theorem State.wrote_registered (i : Instr) (s : State) : (s.wrote i).registered = s.registered := by
  simp [State.wrote]
@[simp] theorem State.wrote_events (i : Instr) (s : State) : (s.wrote i).events = s.events := by
  simp [State.wrote]
@[simp] theorem State.wrote_refused (i : Instr) (s : State) : (s.wrote i).refused = s.refused := by
  simp [State.wrote]
@[simp] theorem State.wrote_ihState (i : Instr) (s : State) : (s.wrote i).ihState = s.ihState := by
  simp [State.wrote]
@[simp] theorem State.wrote_attached (i : Instr) (s : State) : (s.wrote i).attached = s.attached := by
  simp [State.wrote]
@[simp] theorem State.wrote_params (i : Instr) (s : State) : (s.wrote i).params = s.params := by
  simp [State.wrote]
@[simp] theorem State.wrote_draws (i : Instr) (s : State) : (s.wrote i).draws = s.draws := by
  simp [State.wrote]
@[simp] theorem State.wrote_schedule (i : Instr) (s : State) : (s.wrote i).schedule = s.schedule := by
  simp [State.wrote]
@[simp] theorem State.wrote_actor (i : Instr) (s : State) : (s.wrote i).actor = s.actor := by
  simp [State.wrote]

/-! ### busRead: the fields it leaves alone -/

@[simp] theorem State.busRead_ctrSec (r : Reg) (s : State) : (s.busRead r).ctrSec = s.ctrSec := by
  simp [State.busRead]
@[simp] theorem State.busRead_ctrNsfx (r : Reg) (s : State) : (s.busRead r).ctrNsfx = s.ctrNsfx := by
  simp [State.busRead]
@[simp] theorem State.busRead_inc (r : Reg) (s : State) : (s.busRead r).inc = s.inc := by
  simp [State.busRead]
@[simp] theorem State.busRead_offNs (r : Reg) (s : State) : (s.busRead r).offNs = s.offNs := by
  simp [State.busRead]
@[simp] theorem State.busRead_offSec (r : Reg) (s : State) : (s.busRead r).offSec = s.offSec := by
  simp [State.busRead]
@[simp] theorem State.busRead_stgSecLo (r : Reg) (s : State) : (s.busRead r).stgSecLo = s.stgSecLo := by
  simp [State.busRead]
@[simp] theorem State.busRead_stgSecHi (r : Reg) (s : State) : (s.busRead r).stgSecHi = s.stgSecHi := by
  simp [State.busRead]
@[simp] theorem State.busRead_intPend (r : Reg) (s : State) : (s.busRead r).intPend = s.intPend := by
  simp [State.busRead]
@[simp] theorem State.busRead_pulseCount (r : Reg) (s : State) : (s.busRead r).pulseCount = s.pulseCount := by
  simp [State.busRead]
@[simp] theorem State.busRead_ppsEnabled (r : Reg) (s : State) : (s.busRead r).ppsEnabled = s.ppsEnabled := by
  simp [State.busRead]
@[simp] theorem State.busRead_lock (r : Reg) (s : State) : (s.busRead r).lock = s.lock := by
  simp [State.busRead]
@[simp] theorem State.busRead_registered (r : Reg) (s : State) : (s.busRead r).registered = s.registered := by
  simp [State.busRead]
@[simp] theorem State.busRead_events (r : Reg) (s : State) : (s.busRead r).events = s.events := by
  simp [State.busRead]
@[simp] theorem State.busRead_refused (r : Reg) (s : State) : (s.busRead r).refused = s.refused := by
  simp [State.busRead]
@[simp] theorem State.busRead_ihState (r : Reg) (s : State) : (s.busRead r).ihState = s.ihState := by
  simp [State.busRead]
@[simp] theorem State.busRead_attached (r : Reg) (s : State) : (s.busRead r).attached = s.attached := by
  simp [State.busRead]
@[simp] theorem State.busRead_params (r : Reg) (s : State) : (s.busRead r).params = s.params := by
  simp [State.busRead]
@[simp] theorem State.busRead_schedule (r : Reg) (s : State) : (s.busRead r).schedule = s.schedule := by
  simp [State.busRead]
@[simp] theorem State.busRead_actor (r : Reg) (s : State) : (s.busRead r).actor = s.actor := by
  simp [State.busRead]

/-! ### acquire: the fields it leaves alone -/

@[simp] theorem State.acquire_ctrSec (k : Nat) (s : State) : (s.acquire k).ctrSec = s.ctrSec := by
  unfold State.acquire; split <;> rfl
@[simp] theorem State.acquire_ctrNsfx (k : Nat) (s : State) : (s.acquire k).ctrNsfx = s.ctrNsfx := by
  unfold State.acquire; split <;> rfl
@[simp] theorem State.acquire_inc (k : Nat) (s : State) : (s.acquire k).inc = s.inc := by
  unfold State.acquire; split <;> rfl
@[simp] theorem State.acquire_offNs (k : Nat) (s : State) : (s.acquire k).offNs = s.offNs := by
  unfold State.acquire; split <;> rfl
@[simp] theorem State.acquire_offSec (k : Nat) (s : State) : (s.acquire k).offSec = s.offSec := by
  unfold State.acquire; split <;> rfl
@[simp] theorem State.acquire_stgSecLo (k : Nat) (s : State) : (s.acquire k).stgSecLo = s.stgSecLo := by
  unfold State.acquire; split <;> rfl
@[simp] theorem State.acquire_stgSecHi (k : Nat) (s : State) : (s.acquire k).stgSecHi = s.stgSecHi := by
  unfold State.acquire; split <;> rfl
@[simp] theorem State.acquire_intPend (k : Nat) (s : State) : (s.acquire k).intPend = s.intPend := by
  unfold State.acquire; split <;> rfl
@[simp] theorem State.acquire_pulseCount (k : Nat) (s : State) : (s.acquire k).pulseCount = s.pulseCount := by
  unfold State.acquire; split <;> rfl
@[simp] theorem State.acquire_ppsEnabled (k : Nat) (s : State) : (s.acquire k).ppsEnabled = s.ppsEnabled := by
  unfold State.acquire; split <;> rfl
@[simp] theorem State.acquire_registered (k : Nat) (s : State) : (s.acquire k).registered = s.registered := by
  unfold State.acquire; split <;> rfl
@[simp] theorem State.acquire_events (k : Nat) (s : State) : (s.acquire k).events = s.events := by
  unfold State.acquire; split <;> rfl
@[simp] theorem State.acquire_refused (k : Nat) (s : State) : (s.acquire k).refused = s.refused := by
  unfold State.acquire; split <;> rfl
@[simp] theorem State.acquire_ihState (k : Nat) (s : State) : (s.acquire k).ihState = s.ihState := by
  unfold State.acquire; split <;> rfl
@[simp] theorem State.acquire_attached (k : Nat) (s : State) : (s.acquire k).attached = s.attached := by
  unfold State.acquire; split <;> rfl
@[simp] theorem State.acquire_params (k : Nat) (s : State) : (s.acquire k).params = s.params := by
  unfold State.acquire; split <;> rfl
@[simp] theorem State.acquire_draws (k : Nat) (s : State) : (s.acquire k).draws = s.draws := by
  unfold State.acquire; split <;> rfl
@[simp] theorem State.acquire_schedule (k : Nat) (s : State) : (s.acquire k).schedule = s.schedule := by
  unfold State.acquire; split <;> rfl
@[simp] theorem State.acquire_actor (k : Nat) (s : State) : (s.acquire k).actor = s.actor := by
  unfold State.acquire; split <;> rfl

/-! ### startGuarded: the fields it leaves alone -/

@[simp] theorem State.startGuarded_ctrSec (k : Nat) (op : Op) (s : State) : (s.startGuarded k op).ctrSec = s.ctrSec := by
  simp [State.startGuarded]
@[simp] theorem State.startGuarded_ctrNsfx (k : Nat) (op : Op) (s : State) : (s.startGuarded k op).ctrNsfx = s.ctrNsfx := by
  simp [State.startGuarded]
@[simp] theorem State.startGuarded_inc (k : Nat) (op : Op) (s : State) : (s.startGuarded k op).inc = s.inc := by
  simp [State.startGuarded]
@[simp] theorem State.startGuarded_offNs (k : Nat) (op : Op) (s : State) : (s.startGuarded k op).offNs = s.offNs := by
  simp [State.startGuarded]
@[simp] theorem State.startGuarded_offSec (k : Nat) (op : Op) (s : State) : (s.startGuarded k op).offSec = s.offSec := by
  simp [State.startGuarded]
@[simp] theorem State.startGuarded_stgSecLo (k : Nat) (op : Op) (s : State) : (s.startGuarded k op).stgSecLo = s.stgSecLo := by
  simp [State.startGuarded]
@[simp] theorem State.startGuarded_stgSecHi (k : Nat) (op : Op) (s : State) : (s.startGuarded k op).stgSecHi = s.stgSecHi := by
  simp [State.startGuarded]
@[simp] theorem State.startGuarded_intPend (k : Nat) (op : Op) (s : State) : (s.startGuarded k op).intPend = s.intPend := by
  simp [State.startGuarded]
@[simp] theorem State.startGuarded_pulseCount (k : Nat) (op : Op) (s : State) : (s.startGuarded k op).pulseCount = s.pulseCount := by
  simp [State.startGuarded]
@[simp] theorem State.startGuarded_ppsEnabled (k : Nat) (op : Op) (s : State) : (s.startGuarded k op).ppsEnabled = s.ppsEnabled := by
  simp [State.startGuarded]
@[simp] theorem State.startGuarded_registered (k : Nat) (op : Op) (s : State) : (s.startGuarded k op).registered = s.registered := by
  simp [State.startGuarded]
@[simp] theorem State.startGuarded_events (k : Nat) (op : Op) (s : State) : (s.startGuarded k op).events = s.events := by
  simp [State.startGuarded]
@[simp] theorem State.startGuarded_refused (k : Nat) (op : Op) (s : State) : (s.startGuarded k op).refused = s.refused := by
  simp [State.startGuarded]
@[simp] theorem State.startGuarded_ihState (k : Nat) (op : Op) (s : State) : (s.startGuarded k op).ihState = s.ihState := by
  simp [State.startGuarded]
@[simp] theorem State.startGuarded_attached (k : Nat) (op : Op) (s : State) : (s.startGuarded k op).attached = s.attached := by
  simp [State.startGuarded]
@[simp] theorem State.startGuarded_params (k : Nat) (op : Op) (s : State) : (s.startGuarded k op).params = s.params := by
  simp [State.startGuarded]
@[simp] theorem State.startGuarded_draws (k : Nat) (op : Op) (s : State) : (s.startGuarded k op).draws = s.draws := by
  simp [State.startGuarded]
@[simp] theorem State.startGuarded_schedule (k : Nat) (op : Op) (s : State) : (s.startGuarded k op).schedule = s.schedule := by
  simp [State.startGuarded]
@[simp] theorem State.startGuarded_actor (k : Nat) (op : Op) (s : State) : (s.startGuarded k op).actor = s.actor := by
  simp [State.startGuarded]

/-! ### tickCounter: the fields it leaves alone -/

@[simp] theorem State.tickCounter_inc (s : State) : s.tickCounter.inc = s.inc := by
  unfold State.tickCounter; split <;> rfl
@[simp] theorem State.tickCounter_offNs (s : State) : s.tickCounter.offNs = s.offNs := by
  unfold State.tickCounter; split <;> rfl
@[simp] theorem State.tickCounter_offSec (s : State) : s.tickCounter.offSec = s.offSec := by
  unfold State.tickCounter; split <;> rfl
@[simp] theorem State.tickCounter_stgSecLo (s : State) : s.tickCounter.stgSecLo = s.stgSecLo := by
  unfold State.tickCounter; split <;> rfl
@[simp] theorem State.tickCounter_stgSecHi (s : State) : s.tickCounter.stgSecHi = s.stgSecHi := by
  unfold State.tickCounter; split <;> rfl
@[simp] theorem State.tickCounter_intPend (s : State) : s.tickCounter.intPend = s.intPend := by
  unfold State.tickCounter; split <;> rfl
@[simp] theorem State.tickCounter_pulseCount (s : State) : s.tickCounter.pulseCount = s.pulseCount := by
  unfold State.tickCounter; split <;> rfl
@[simp] theorem State.tickCounter_ppsEnabled (s : State) : s.tickCounter.ppsEnabled = s.ppsEnabled := by
  unfold State.tickCounter; split <;> rfl
@[simp] theorem State.tickCounter_lock (s : State) : s.tickCounter.lock = s.lock := by
  unfold State.tickCounter; split <;> rfl
@[simp] theorem State.tickCounter_registered (s : State) : s.tickCounter.registered = s.registered := by
  unfold State.tickCounter; split <;> rfl
@[simp] theorem State.tickCounter_events (s : State) : s.tickCounter.events = s.events := by
  unfold State.tickCounter; split <;> rfl
@[simp] theorem State.tickCounter_refused (s : State) : s.tickCounter.refused = s.refused := by
  unfold State.tickCounter; split <;> rfl
@[simp] theorem State.tickCounter_ihState (s : State) : s.tickCounter.ihState = s.ihState := by
  unfold State.tickCounter; split <;> rfl
@[simp] theorem State.tickCounter_attached (s : State) : s.tickCounter.attached = s.attached := by
  unfold State.tickCounter; split <;> rfl
@[simp] theorem State.tickCounter_callers (s : State) : s.tickCounter.callers = s.callers := by
  unfold State.tickCounter; split <;> rfl
@[simp] theorem State.tickCounter_params (s : State) : s.tickCounter.params = s.params := by
  unfold State.tickCounter; split <;> rfl
@[simp] theorem State.tickCounter_draws (s : State) : s.tickCounter.draws = s.draws := by
  unfold State.tickCounter; split <;> rfl
@[simp] theorem State.tickCounter_schedule (s : State) : s.tickCounter.schedule = s.schedule := by
  unfold State.tickCounter; split <;> rfl
@[simp] theorem State.tickCounter_actor (s : State) : s.tickCounter.actor = s.actor := by
  unfold State.tickCounter; split <;> rfl

/-! ### enterHandler: the fields it leaves alone -/

@[simp] theorem State.enterHandler_ctrSec (s : State) : s.enterHandler.ctrSec = s.ctrSec := by
  unfold State.enterHandler; split <;> rfl
@[simp] theorem State.enterHandler_ctrNsfx (s : State) : s.enterHandler.ctrNsfx = s.ctrNsfx := by
  unfold State.enterHandler; split <;> rfl
@[simp] theorem State.enterHandler_inc (s : State) : s.enterHandler.inc = s.inc := by
  unfold State.enterHandler; split <;> rfl
@[simp] theorem State.enterHandler_offNs (s : State) : s.enterHandler.offNs = s.offNs := by
  unfold State.enterHandler; split <;> rfl
@[simp] theorem State.enterHandler_offSec (s : State) : s.enterHandler.offSec = s.offSec := by
  unfold State.enterHandler; split <;> rfl
@[simp] theorem State.enterHandler_stgSecLo (s : State) : s.enterHandler.stgSecLo = s.stgSecLo := by
  unfold State.enterHandler; split <;> rfl
@[simp] theorem State.enterHandler_stgSecHi (s : State) : s.enterHandler.stgSecHi = s.stgSecHi := by
  unfold State.enterHandler; split <;> rfl
@[simp] theorem State.enterHandler_intPend (s : State) : s.enterHandler.intPend = s.intPend := by
  unfold State.enterHandler; split <;> rfl
@[simp] theorem State.enterHandler_ppsEnabled (s : State) : s.enterHandler.ppsEnabled = s.ppsEnabled := by
  unfold State.enterHandler; split <;> rfl
@[simp] theorem State.enterHandler_lock (s : State) : s.enterHandler.lock = s.lock := by
  unfold State.enterHandler; split <;> rfl
@[simp] theorem State.enterHandler_registered (s : State) : s.enterHandler.registered = s.registered := by
  unfold State.enterHandler; split <;> rfl
@[simp] theorem State.enterHandler_refused (s : State) : s.enterHandler.refused = s.refused := by
  unfold State.enterHandler; split <;> rfl
@[simp] theorem State.enterHandler_attached (s : State) : s.enterHandler.attached = s.attached := by
  unfold State.enterHandler; split <;> rfl
@[simp] theorem State.enterHandler_callers (s : State) : s.enterHandler.callers = s.callers := by
  unfold State.enterHandler; split <;> rfl
@[simp] theorem State.enterHandler_params (s : State) : s.enterHandler.params = s.params := by
  unfold State.enterHandler; split <;> rfl
@[simp] theorem State.enterHandler_draws (s : State) : s.enterHandler.draws = s.draws := by
  unfold State.enterHandler; split <;> rfl
@[simp] theorem State.enterHandler_schedule (s : State) : s.enterHandler.schedule = s.schedule := by
  unfold State.enterHandler; split <;> rfl
@[simp] theorem State.enterHandler_actor (s : State) : s.enterHandler.actor = s.actor := by
  unfold State.enterHandler; split <;> rfl

/-! ### ackHandler: the fields it leaves alone -/

@[simp] theorem State.ackHandler_ctrSec (d : Word) (s : State) : (s.ackHandler d).ctrSec = s.ctrSec := by
  unfold State.ackHandler; split <;> rfl
@[simp] theorem State.ackHandler_ctrNsfx (d : Word) (s : State) : (s.ackHandler d).ctrNsfx = s.ctrNsfx := by
  unfold State.ackHandler; split <;> rfl
@[simp] theorem State.ackHandler_inc (d : Word) (s : State) : (s.ackHandler d).inc = s.inc := by
  unfold State.ackHandler; split <;> rfl
@[simp] theorem State.ackHandler_offNs (d : Word) (s : State) : (s.ackHandler d).offNs = s.offNs := by
  unfold State.ackHandler; split <;> rfl
@[simp] theorem State.ackHandler_offSec (d : Word) (s : State) : (s.ackHandler d).offSec = s.offSec := by
  unfold State.ackHandler; split <;> rfl
@[simp] theorem State.ackHandler_stgSecLo (d : Word) (s : State) : (s.ackHandler d).stgSecLo = s.stgSecLo := by
  unfold State.ackHandler; split <;> rfl
@[simp] theorem State.ackHandler_stgSecHi (d : Word) (s : State) : (s.ackHandler d).stgSecHi = s.stgSecHi := by
  unfold State.ackHandler; split <;> rfl
@[simp] theorem State.ackHandler_pulseCount (d : Word) (s : State) : (s.ackHandler d).pulseCount = s.pulseCount := by
  unfold State.ackHandler; split <;> rfl
@[simp] theorem State.ackHandler_ppsEnabled (d : Word) (s : State) : (s.ackHandler d).ppsEnabled = s.ppsEnabled := by
  unfold State.ackHandler; split <;> rfl
@[simp] theorem State.ackHandler_lock (d : Word) (s : State) : (s.ackHandler d).lock = s.lock := by
  unfold State.ackHandler; split <;> rfl
@[simp] theorem State.ackHandler_registered (d : Word) (s : State) : (s.ackHandler d).registered = s.registered := by
  unfold State.ackHandler; split <;> rfl
@[simp] theorem State.ackHandler_events (d : Word) (s : State) : (s.ackHandler d).events = s.events := by
  unfold State.ackHandler; split <;> rfl
@[simp] theorem State.ackHandler_refused (d : Word) (s : State) : (s.ackHandler d).refused = s.refused := by
  unfold State.ackHandler; split <;> rfl
@[simp] theorem State.ackHandler_attached (d : Word) (s : State) : (s.ackHandler d).attached = s.attached := by
  unfold State.ackHandler; split <;> rfl
@[simp] theorem State.ackHandler_callers (d : Word) (s : State) : (s.ackHandler d).callers = s.callers := by
  unfold State.ackHandler; split <;> rfl
@[simp] theorem State.ackHandler_params (d : Word) (s : State) : (s.ackHandler d).params = s.params := by
  unfold State.ackHandler; split <;> rfl
@[simp] theorem State.ackHandler_draws (d : Word) (s : State) : (s.ackHandler d).draws = s.draws := by
  unfold State.ackHandler; split <;> rfl
@[simp] theorem State.ackHandler_schedule (d : Word) (s : State) : (s.ackHandler d).schedule = s.schedule := by
  unfold State.ackHandler; split <;> rfl
@[simp] theorem State.ackHandler_actor (d : Word) (s : State) : (s.ackHandler d).actor = s.actor := by
  unfold State.ackHandler; split <;> rfl

end Sys2Proof.Machine
end

