-- ==== Sys2Proof/Laws/Ops.lean ====
section
/-! SUPPORT. What each shared operation does, said once; the fetch's cases; what a run of a sequence unfolds to. -/

namespace Sys2Proof.Machine

/-! ### The acting caller -/

theorem modify_eq_set {l : List Ctx} {k : Nat} {c : Ctx} (f : Ctx → Ctx) (h : l[k]? = some c) :
    l.modify k f = l.set k (f c) := by
  obtain ⟨hk, rfl⟩ := List.getElem?_eq_some_iff.mp h
  apply List.ext_getElem?
  intro j
  by_cases hj : k = j
  · subst hj; simp [hk]
  · simp [hj]

theorem set_same {l : List Ctx} {k : Nat} {c : Ctx} (h : l[k]? = some c) : l.set k c = l := by
  obtain ⟨hk, rfl⟩ := List.getElem?_eq_some_iff.mp h
  simp

theorem getElem?_set_acting {l : List Ctx} {k : Nat} {c : Ctx} (d : Ctx) (h : l[k]? = some c) :
    (l.set k d)[k]? = some d := by
  obtain ⟨hk, -⟩ := List.getElem?_eq_some_iff.mp h
  simp [hk]

/-- An agent that is no caller has no context to change. -/
theorem State.onActor_other {s : State} (f : Ctx → Ctx) (h : ∀ k, s.actor ≠ .caller k) : s.onActor f = s := by
  unfold State.onActor
  split
  · rename_i k hk; exact absurd hk (h k)
  all_goals rfl

theorem State.onActor_acting {s : State} {k : Nat} {c : Ctx} (f : Ctx → Ctx) (h : s.Acting k c) :
    s.onActor f = { s with callers := s.callers.set k (f c) } := by
  unfold State.onActor
  rw [h.1]
  simp only [modify_eq_set f h.2]

theorem State.onActor_callers_length (f : Ctx → Ctx) (s : State) :
    (s.onActor f).callers.length = s.callers.length := by
  unfold State.onActor
  split <;> simp

theorem State.onActor_callers_other (f : Ctx → Ctx) (s : State) {j : Nat} (h : s.actor ≠ .caller j) :
    (s.onActor f).callers[j]? = s.callers[j]? := by
  unfold State.onActor
  split
  · rename_i k hk
    have : k ≠ j := fun e => h (e ▸ hk)
    simp [this]
  all_goals rfl

theorem State.actingCaller_of_acting {s : State} {k : Nat} {c : Ctx} (h : s.Acting k c) :
    s.actingCaller = some (k, c) := by
  unfold State.actingCaller
  rw [h.1]
  simp only [h.2]

theorem State.acting_of_actingCaller {s : State} {k : Nat} {c : Ctx} (h : s.actingCaller = some (k, c)) :
    s.Acting k c := by
  unfold State.actingCaller at h
  split at h
  · rename_i j hj
    split at h
    · rename_i d hd
      simp only [Option.some.injEq, Prod.mk.injEq] at h
      obtain ⟨rfl, rfl⟩ := h
      exact ⟨hj, hd⟩
    · cases h
  all_goals cases h

/-- A direct access leaves the operation's part of an idle context alone (rule R37). -/
theorem Ctx.after_idle {c : Ctx} (p : Params) (i : Instr) (v : Word) (h : c.op = .idle) : c.after p i v = c := by
  unfold Ctx.after Ctx.nextInstr
  simp [h]

/-- The step its sequence lists advances a context. -/
theorem Ctx.after_next {c : Ctx} {p : Params} {i : Instr} (v : Word) (h : c.nextInstr p = some i) :
    c.after p i v = c.advance v := by
  simp [Ctx.after, h]

/-- An operation has `LOCK_ACQ` next exactly at its first step (rule R171). -/
theorem Ctx.nextInstr_lockAcq {c : Ctx} {p : Params} :
    c.nextInstr p = some .lockAcq ↔ c.op ≠ .idle ∧ c.sp = 0 := by
  unfold Ctx.nextInstr
  repeat' split
  all_goals simp_all

/-- An operation has `LOCK_REL` next exactly at its last step (rule R171). -/
theorem Ctx.nextInstr_lockRel {c : Ctx} {p : Params} :
    c.nextInstr p = some .lockRel ↔ c.op ≠ .idle ∧ c.sp = c.lastStep := by
  unfold Ctx.nextInstr Ctx.lastStep
  repeat' split
  all_goals simp_all

/-- Behind its first step an operation stands at step 1. -/
theorem Ctx.advance_first {c : Ctx} (v : Word) (ho : c.op ≠ .idle) (hs : c.sp = 0) : c.advance v = { c with sp := 1 } := by
  unfold Ctx.advance
  split
  · contradiction
  all_goals simp [hs]

/-- Behind its last step an operation has returned: `get_time` its time value, the others `Ok`. -/
theorem Ctx.advance_last {c : Ctx} (v : Word) (ho : c.op ≠ .idle) (hs : c.sp = c.lastStep) :
    c.advance v = c.ret (if c.op = .getTime then .okTime c.tv else .ok) := by
  unfold Ctx.advance Ctx.lastStep at *
  split at hs
  · contradiction
  · simp_all
  · simp_all
  · split at hs <;> simp_all

/-! ### Reads, writes, the guard, the host operations -/

/-- The host bus returns the bytes of the word just read (rules R52, R71). -/
@[simp] theorem Ctx.afterRead_busBytes (p : Params) (i : Instr) (v : Word) (c : Ctx) :
    (c.afterRead p i v).busBytes = wordBytes v := rfl

/-- Everything a bus read by a caller does (rules R57, R71, R100). -/
theorem State.busRead_acting {s : State} {k : Nat} {c : Ctx} (r : Reg) (h : s.Acting k c) :
    s.busRead r = { s with
      draws := s.draws + (s.regDraws r).toNat
      callers := s.callers.set k (c.afterRead s.params r.readInstr (s.regValue r)) } := by
  unfold State.busRead
  rw [State.onActor_acting _ (s := s.takeDraw (s.regDraws r)) (k := k) (c := c) h]
  rfl

/-- Everything that a write leaves in the writing caller's context. -/
theorem State.wrote_acting {s : State} {k : Nat} {c : Ctx} (i : Instr) (h : s.Acting k c) :
    s.wrote i = { s with callers := s.callers.set k (c.after s.params i 0) } :=
  State.onActor_acting _ h

theorem State.acquire_free {s : State} {k : Nat} {c : Ctx} (h : s.callers[k]? = some c) (hl : s.lock = none) :
    s.acquire k = { s with lock := some k, callers := s.callers.set k (c.after s.params .lockAcq 0) } := by
  unfold State.acquire
  rw [hl]
  simp only [modify_eq_set _ h]

theorem State.acquire_held {s : State} {k j : Nat} (hl : s.lock = some j) : s.acquire k = s := by
  unfold State.acquire
  rw [hl]

theorem State.release_holder {s : State} {k : Nat} {c : Ctx} (h : s.callers[k]? = some c) :
    s.release k = { s with lock := none, callers := s.callers.set k (c.after s.params .lockRel 0) } := by
  unfold State.release
  rw [modify_eq_set _ h]

theorem State.returnTo_caller {s : State} {k : Nat} {c : Ctx} (r : Result) (h : s.callers[k]? = some c) :
    s.returnTo k r = { s with callers := s.callers.set k (c.ret r) } := by
  unfold State.returnTo
  rw [modify_eq_set _ h]

theorem State.hostOp_idle {s : State} {k : Nat} {c : Ctx} (f : Nat → State) (h : s.Acting k c) (hi : c.op = .idle) :
    s.hostOp f = .next (f k) := by
  unfold State.hostOp
  simp [State.actingCaller_of_acting h, hi]

/-- A guard step of the acting caller's sequence (rule R170). -/
theorem State.guardStep_next {s : State} {k : Nat} {c : Ctx} {i : Instr} (f : Nat → Host.Outcome State Fault Refusal)
    (h : s.Acting k c) (hn : c.nextInstr s.params = some i) : s.guardStep i f = f k := by
  unfold State.guardStep
  simp [State.actingCaller_of_acting h, hn]

/-- A guard step anywhere else is refused (rule R77, log 16). -/
theorem State.guardStep_elsewhere {s : State} {k : Nat} {c : Ctx} {i : Instr}
    (f : Nat → Host.Outcome State Fault Refusal) (h : s.Acting k c) (hn : c.nextInstr s.params ≠ some i) :
    s.guardStep i f = .refused .outOfSequence := by
  unfold State.guardStep
  simp [State.actingCaller_of_acting h, hn]

/-- A guard step answers a next state only where the acting caller's operation has it next (rules R77, R170). -/
theorem State.guardStep_cases {s t : State} {i : Instr} {f : Nat → Host.Outcome State Fault Refusal}
    (h : s.guardStep i f = .next t) :
    ∃ k c, s.Acting k c ∧ c.nextInstr s.params = some i ∧ f k = .next t := by
  unfold State.guardStep at h
  split at h
  · cases h
  · rename_i k c hc
    split at h
    · rename_i hn; exact ⟨k, c, State.acting_of_actingCaller hc, hn, h⟩
    · cases h

/-- A host operation answers a next state only for an idle acting caller (rule R37). -/
theorem State.hostOp_next {s t : State} {f : Nat → State} (h : s.hostOp f = .next t) :
    ∃ k c, s.Acting k c ∧ c.op = .idle ∧ t = f k := by
  unfold State.hostOp at h
  split at h
  · cases h
  · rename_i k c hc
    split at h
    · rename_i hi
      cases h
      exact ⟨k, c, State.acting_of_actingCaller hc, hi, rfl⟩
    · cases h

/-- The first step of a guarded operation leaves its context at step 0, advanced if the guard was free. -/
theorem State.startGuarded_acting {s : State} {k : Nat} {c : Ctx} (op : Op) (h : s.callers[k]? = some c) :
    s.startGuarded k op =
      match s.lock with
      | none => { s with
          lock := some k
          callers := s.callers.set k (Ctx.after s.params .lockAcq 0 { c with op := op, sp := 0 }) }
      | some _ => { s with callers := s.callers.set k { c with op := op, sp := 0 } } := by
  unfold State.startGuarded
  rw [modify_eq_set _ h]
  unfold State.acquire
  split
  · rename_i hl
    simp only at hl
    simp only [hl]
    rw [modify_eq_set _ (getElem?_set_acting _ h)]
    simp
  · rename_i j hl
    simp only at hl
    simp only [hl]

/-! ### The composed time -/

/-- The carry and the nanoseconds depend on the counter's and the offset's nanoseconds alone (rule R132). -/
theorem State.curNs_congr {s t : State} (h1 : t.ctrNsfx = s.ctrNsfx) (h2 : t.offNs = s.offNs) :
    t.nsCarry = s.nsCarry ∧ t.curNs = s.curNs := by
  have hn : t.nsSum = s.nsSum := by simp [State.nsSum, h1, h2]
  have hc : t.nsCarry = s.nsCarry := by simp [State.nsCarry, hn]
  exact ⟨hc, by simp [State.curNs, hn, hc]⟩

/-- The seconds depend on counter and offset alone (rule R132). -/
theorem State.curSec_congr {s t : State} (h1 : t.ctrNsfx = s.ctrNsfx) (h2 : t.offNs = s.offNs)
    (h3 : t.ctrSec = s.ctrSec) (h4 : t.offSec = s.offSec) : t.curSec = s.curSec := by
  simp [State.curSec, h3, h4, (State.curNs_congr h1 h2).1]

/-! ### The fetch -/

/-- What a scheduled agent's offer can be: its guards, and the state it runs on. -/
theorem State.offer_run {s u : State} {a : Agent} {i j : Instr} (h : s.offer a i = .run j u) :
    j = i ∧ u = { s with actor := a } ∧ a.has i = true ∧ s.hasAgent a = true ∧
    (s.attached = true ∨ a.outlivesCore = true) ∧ s.breaksOrder a i = false := by
  unfold State.offer at h
  split at h
  · cases h
  · rename_i h12
    split at h
    · cases h
    · rename_i h3
      split at h
      · cases h
      · rename_i h4
        simp only [Bool.not_eq_false, Bool.and_eq_true] at h12
        simp only [Bool.not_eq_false, Bool.or_eq_true] at h3
        simp only [Bool.not_eq_true] at h4
        simp only [Fetch.run.injEq] at h
        obtain ⟨rfl, rfl⟩ := h
        exact ⟨rfl, rfl, h12.1, h12.2, h3, h4⟩

theorem State.offer_eq_run {s : State} {a : Agent} {i : Instr} (h1 : a.has i = true) (h2 : s.hasAgent a = true)
    (h3 : s.attached = true ∨ a.outlivesCore = true) (h4 : s.breaksOrder a i = false) :
    s.offer a i = .run i { s with actor := a } := by
  unfold State.offer
  rcases h3 with h3 | h3 <;> simp [h1, h2, h3, h4]

theorem State.offer_ne_done {s u : State} {a : Agent} {i : Instr} : s.offer a i ≠ .done u := by
  unfold State.offer
  split
  · simp
  · split
    · simp
    · split <;> simp

theorem State.hasAgent_caller {s : State} {k : Nat} {c : Ctx} (h : s.callers[k]? = some c) :
    s.hasAgent (.caller k) = true := by
  simp [State.hasAgent, h]

theorem State.breaksOrder_idle {s : State} {k : Nat} {c : Ctx} (i : Instr) (h : s.callers[k]? = some c)
    (hi : c.op = .idle) : s.breaksOrder (.caller k) i = false := by
  simp [State.breaksOrder, h, hi]

theorem State.breaksOrder_next {s : State} {k : Nat} {c : Ctx} {i : Instr} (h : s.callers[k]? = some c)
    (hn : c.nextInstr s.params = some i) : s.breaksOrder (.caller k) i = false := by
  simp [State.breaksOrder, h, hn]

/-- Every step of every operation's sequence is a caller's step (rule R125). -/
theorem Ctx.nextInstr_callers {c : Ctx} {p : Params} {i : Instr} (h : c.nextInstr p = some i) (k : Nat) :
    Agent.has (.caller k) i = true := by
  unfold Ctx.nextInstr at h
  repeat' split at h
  all_goals first | (cases h; done) | (cases h; rfl)

/-- All is quiet where no operation is in progress and the handler is idle (rule R253). -/
theorem State.quiet_iff {s : State} :
    s.quiet = true ↔ (∀ c ∈ s.callers, c.op = .idle) ∧ s.ihState = .idle := by
  simp [State.quiet]

/-- How a step answers a next state: an instruction the fetch ran, or an entry without one. -/
theorem step_next {s t : State} (h : step s = .next t) :
    (∃ i u, s.fetch = .run i u ∧ exec i u = .next t) ∨ s.fetch = .done t := by
  unfold step at h
  split at h
  · rename_i i u hf; exact .inl ⟨i, u, hf, h⟩
  · rename_i u hf; cases h; exact .inr hf
  · cases h
  · cases h

/-- Where a fetched instruction comes from: some agent was offered it on the state behind the entry. -/
theorem State.fetch_run {s u : State} {i : Instr} (h : s.fetch = .run i u) :
    ∃ e rest a, s.schedule = e :: rest ∧ State.offer a i { s with schedule := rest } = .run i u := by
  unfold State.fetch at h
  split at h
  · cases h
  · rename_i e rest hs
    refine ⟨e, rest, ?_⟩
    cases e with
    | issue a code =>
      simp only [State.take] at h
      split at h
      · have := (State.offer_run h).1; subst this; exact ⟨a, hs, h⟩
      · cases h
    | bus a acc =>
      simp only [State.take] at h
      split at h
      · have := (State.offer_run h).1; subst this; exact ⟨a, hs, h⟩
      · cases h
    | go k =>
      simp only [State.take] at h
      split at h
      · cases h
      · split at h
        · cases h
        · have := (State.offer_run h).1; subst this; exact ⟨.caller k, hs, h⟩
    | detach => cases h
    | powerCycle => cases h

/-- What an entry without an instruction leaves: an idle caller's turn, a detach or a power cycle. -/
theorem State.fetch_done {s t : State} (h : s.fetch = .done t) :
    ∃ e rest, s.schedule = e :: rest ∧
      ((∃ k, e = .go k ∧ t = { s with schedule := rest }) ∨
        (e = .detach ∧ t = State.detach { s with schedule := rest }) ∨
        (e = .powerCycle ∧ t = State.powerCycle { s with schedule := rest })) := by
  unfold State.fetch at h
  split at h
  · cases h
  · rename_i e rest hs
    refine ⟨e, rest, hs, ?_⟩
    cases e with
    | issue a code =>
      simp only [State.take] at h
      split at h
      · exact absurd h State.offer_ne_done
      · cases h
    | bus a acc =>
      simp only [State.take] at h
      split at h
      · exact absurd h State.offer_ne_done
      · cases h
    | go k =>
      simp only [State.take] at h
      split at h
      · cases h
      · split at h
        · cases h; exact .inl ⟨k, rfl, rfl⟩
        · exact absurd h State.offer_ne_done
    | detach => cases h; exact .inr (.inl ⟨rfl, rfl⟩)
    | powerCycle => cases h; exact .inr (.inr ⟨rfl, rfl⟩)

/-- A caller takes the next step of its operation (rule R37). -/
theorem step_go {s : State} {k : Nat} {c : Ctx} {i : Instr} {rest : List Entry}
    (hs : s.schedule = .go k :: rest) (ha : s.attached = true) (hc : s.callers[k]? = some c)
    (hn : c.nextInstr s.params = some i) :
    step s = exec i { s with schedule := rest, actor := .caller k } := by
  have hof : State.offer (.caller k) i { s with schedule := rest } =
      .run i { s with schedule := rest, actor := .caller k } :=
    State.offer_eq_run (Ctx.nextInstr_callers hn k) (State.hasAgent_caller (s := { s with schedule := rest }) hc)
      (.inl ha) (State.breaksOrder_next (s := { s with schedule := rest }) hc hn)
  simp only [step, State.fetch, hs, State.take, hc, hn, hof]

/-- An agent issues a code that decodes to a step it has (rules R9, R61). -/
theorem step_issue {s : State} {a : Agent} {code tail : List Byte} {i : Instr} {rest : List Entry}
    (hs : s.schedule = .issue a code :: rest) (hd : decode code = .ok (i, tail)) (h1 : a.has i = true)
    (h2 : s.hasAgent a = true) (h3 : s.attached = true ∨ a.outlivesCore = true) (h4 : s.breaksOrder a i = false) :
    step s = exec i { s with schedule := rest, actor := a } := by
  have hof : State.offer a i { s with schedule := rest } = .run i { s with schedule := rest, actor := a } :=
    State.offer_eq_run h1 h2 h3 h4
  simp only [step, State.fetch, hs, State.take, instrOf, hd, hof]

end Sys2Proof.Machine
end

