-- ==== Sys2Proof/Laws/PerInstr.lean ====
section
/-! SUPPORT. The family EncodeHead, per instruction: a code begins with the key of its row and is as long as its format
and operands say, one to thirteen bytes; the format bits of the key are those of rule R70. -/

namespace Sys2Proof.Laws.EncodeHead

/-- The number of operand bytes of an instruction (log 1). -/
def operandLength : Instr → Nat
  | .rdOffsetNs | .rdOffsetSecLo | .rdOffsetSecHi | .rdIncrement | .rdCurNs | .rdCurSecLo | .rdCurSecHi
  | .rdIntStatus | .rdPulseOffset8k | .rdCorrectionField0 | .rdCorrectionField1 => 0
  | .wrOffsetNs _ | .wrOffsetSecLo _ | .wrOffsetSecHi _ | .wrIncrement _ | .wrCurNs _ | .wrCurSecLo _
  | .wrCurSecHi _ | .wrIntStatus _ | .wrPulseOffset8k _ | .wrCorrectionField0 _ | .wrCorrectionField1 _ => 4
  | .getTime => 0
  | .setTime _ => 12
  | .adjTime _ => 8
  | .adjFreq _ => 4
  | .enable _ => 4
  | .tick | .pulse | .ihEntry | .register | .deregister | .lockAcq | .lockRel => 0

/-- The code is the key followed by the operand bytes, and no longer than the longest code. -/
def Statement (i : Instr) : Prop :=
  (encode i).head? = some i.key ∧ (encode i).length = 1 + operandLength i ∧ (encode i).length ≤ maxCodeBytes

theorem rdOffsetNs : Statement .rdOffsetNs := ⟨rfl, rfl, Nat.le_of_ble_eq_true rfl⟩
theorem rdOffsetSecLo : Statement .rdOffsetSecLo := ⟨rfl, rfl, Nat.le_of_ble_eq_true rfl⟩
theorem rdOffsetSecHi : Statement .rdOffsetSecHi := ⟨rfl, rfl, Nat.le_of_ble_eq_true rfl⟩
theorem rdIncrement : Statement .rdIncrement := ⟨rfl, rfl, Nat.le_of_ble_eq_true rfl⟩
theorem rdCurNs : Statement .rdCurNs := ⟨rfl, rfl, Nat.le_of_ble_eq_true rfl⟩
theorem rdCurSecLo : Statement .rdCurSecLo := ⟨rfl, rfl, Nat.le_of_ble_eq_true rfl⟩
theorem rdCurSecHi : Statement .rdCurSecHi := ⟨rfl, rfl, Nat.le_of_ble_eq_true rfl⟩
theorem rdIntStatus : Statement .rdIntStatus := ⟨rfl, rfl, Nat.le_of_ble_eq_true rfl⟩
theorem rdPulseOffset8k : Statement .rdPulseOffset8k := ⟨rfl, rfl, Nat.le_of_ble_eq_true rfl⟩
theorem rdCorrectionField0 : Statement .rdCorrectionField0 := ⟨rfl, rfl, Nat.le_of_ble_eq_true rfl⟩
theorem rdCorrectionField1 : Statement .rdCorrectionField1 := ⟨rfl, rfl, Nat.le_of_ble_eq_true rfl⟩
theorem wrOffsetNs (d : Word) : Statement (.wrOffsetNs d) := ⟨rfl, rfl, Nat.le_of_ble_eq_true rfl⟩
theorem wrOffsetSecLo (d : Word) : Statement (.wrOffsetSecLo d) := ⟨rfl, rfl, Nat.le_of_ble_eq_true rfl⟩
theorem wrOffsetSecHi (d : Word) : Statement (.wrOffsetSecHi d) := ⟨rfl, rfl, Nat.le_of_ble_eq_true rfl⟩
theorem wrIncrement (d : Word) : Statement (.wrIncrement d) := ⟨rfl, rfl, Nat.le_of_ble_eq_true rfl⟩
theorem wrCurNs (d : Word) : Statement (.wrCurNs d) := ⟨rfl, rfl, Nat.le_of_ble_eq_true rfl⟩
theorem wrCurSecLo (d : Word) : Statement (.wrCurSecLo d) := ⟨rfl, rfl, Nat.le_of_ble_eq_true rfl⟩
theorem wrCurSecHi (d : Word) : Statement (.wrCurSecHi d) := ⟨rfl, rfl, Nat.le_of_ble_eq_true rfl⟩
theorem wrIntStatus (d : Word) : Statement (.wrIntStatus d) := ⟨rfl, rfl, Nat.le_of_ble_eq_true rfl⟩
theorem wrPulseOffset8k (d : Word) : Statement (.wrPulseOffset8k d) := ⟨rfl, rfl, Nat.le_of_ble_eq_true rfl⟩
theorem wrCorrectionField0 (d : Word) : Statement (.wrCorrectionField0 d) := ⟨rfl, rfl, Nat.le_of_ble_eq_true rfl⟩
theorem wrCorrectionField1 (d : Word) : Statement (.wrCorrectionField1 d) := ⟨rfl, rfl, Nat.le_of_ble_eq_true rfl⟩
theorem getTime : Statement .getTime := ⟨rfl, rfl, Nat.le_of_ble_eq_true rfl⟩
theorem setTime (tv : TV) : Statement (.setTime tv) := ⟨rfl, rfl, Nat.le_of_ble_eq_true rfl⟩
theorem adjTime (d : DWord) : Statement (.adjTime d) := ⟨rfl, rfl, Nat.le_of_ble_eq_true rfl⟩
theorem adjFreq (d : Word) : Statement (.adjFreq d) := ⟨rfl, rfl, Nat.le_of_ble_eq_true rfl⟩
theorem enable (n : Nat) : Statement (.enable n) := ⟨rfl, rfl, Nat.le_of_ble_eq_true rfl⟩
theorem tick : Statement .tick := ⟨rfl, rfl, Nat.le_of_ble_eq_true rfl⟩
theorem pulse : Statement .pulse := ⟨rfl, rfl, Nat.le_of_ble_eq_true rfl⟩
theorem ihEntry : Statement .ihEntry := ⟨rfl, rfl, Nat.le_of_ble_eq_true rfl⟩
theorem register : Statement .register := ⟨rfl, rfl, Nat.le_of_ble_eq_true rfl⟩
theorem deregister : Statement .deregister := ⟨rfl, rfl, Nat.le_of_ble_eq_true rfl⟩
theorem lockAcq : Statement .lockAcq := ⟨rfl, rfl, Nat.le_of_ble_eq_true rfl⟩
theorem lockRel : Statement .lockRel := ⟨rfl, rfl, Nat.le_of_ble_eq_true rfl⟩

end Sys2Proof.Laws.EncodeHead
end

