-- ==== Sys2Proof/Laws/Runs.lean ====
section
/-! SUPPORT. Runs of a caller's sequence: one lemma per kind of step a scheduled caller takes, and how steps chain. -/

namespace Sys2Proof.Machine

theorem stepN_cons {s t : State} {n : Nat} (h : step s = .next t) : stepN (n + 1) s = stepN n t := by
  simp [stepN, h]

theorem stepN_add {m n : Nat} {s t : State} (h : stepN m s = some t) : stepN (m + n) s = stepN n t := by
  induction m generalizing s with
  | zero => simp only [stepN, Option.some.injEq] at h; rw [h, Nat.zero_add]
  | succ m ih =>
    have hmn : m + 1 + n = (m + n) + 1 := by omega
    rw [hmn]
    cases hs : step s with
    | next u => rw [stepN_cons hs] at h ⊢; exact ih h
    | fault f => simp [stepN, hs] at h
    | refused r => simp [stepN, hs] at h

/-- The schedule and the acting agent do not enter the value of a register. -/
theorem State.regValue_scheduled (r : Reg) (s : State) (l : List Entry) (a : Agent) :
    State.regValue r { s with schedule := l, actor := a } = s.regValue r := by
  cases r <;> rfl

theorem State.regDraws_scheduled (r : Reg) (s : State) (l : List Entry) (a : Agent) :
    State.regDraws r { s with schedule := l, actor := a } = s.regDraws r := by
  cases r <;> rfl

/-- A scheduled caller takes a read of its sequence (rule R100). -/
theorem step_go_read {s : State} {k : Nat} {c : Ctx} {r : Reg} {rest : List Entry}
    (hs : s.schedule = .go k :: rest) (ha : s.attached = true) (hc : s.callers[k]? = some c)
    (hn : c.nextInstr s.params = some r.readInstr) :
    step s = .next { s with
      schedule := rest
      actor := .caller k
      draws := s.draws + (s.regDraws r).toNat
      callers := s.callers.set k { c.advance (s.regValue r) with rdata := s.regValue r } } := by
  have hrun : exec r.readInstr { s with schedule := rest, actor := .caller k } =
      .next (State.busRead r { s with schedule := rest, actor := .caller k }) := by cases r <;> rfl
  rw [step_go hs ha hc hn, hrun,
    State.busRead_acting (s := { s with schedule := rest, actor := .caller k }) (k := k) (c := c) r ⟨rfl, hc⟩]
  simp only [State.regValue_scheduled, State.regDraws_scheduled, Ctx.afterRead, Ctx.after_next _ hn]

/-- A scheduled caller takes a write of OFFSET_NS of its sequence (rule R103). -/
theorem step_go_wrOffsetNs {s : State} {k : Nat} {c : Ctx} {d : Word} {rest : List Entry}
    (hs : s.schedule = .go k :: rest) (ha : s.attached = true) (hc : s.callers[k]? = some c)
    (hn : c.nextInstr s.params = some (.wrOffsetNs d)) :
    step s = .next { s with
      schedule := rest
      actor := .caller k
      offNs := d
      offSec := s.stgSecHi ++ s.stgSecLo
      callers := s.callers.set k (c.advance 0) } := by
  rw [step_go hs ha hc hn, exec, execWrOffsetNs,
    State.wrote_acting (s := State.commitOffset d { s with schedule := rest, actor := .caller k }) (k := k) (c := c) _
      ⟨rfl, hc⟩]
  simp only [State.commitOffset, Ctx.after_next _ hn]

/-- A scheduled caller takes a write of OFFSET_SEC_LO of its sequence (rule R105). -/
theorem step_go_wrOffsetSecLo {s : State} {k : Nat} {c : Ctx} {d : Word} {rest : List Entry}
    (hs : s.schedule = .go k :: rest) (ha : s.attached = true) (hc : s.callers[k]? = some c)
    (hn : c.nextInstr s.params = some (.wrOffsetSecLo d)) :
    step s = .next { s with
      schedule := rest
      actor := .caller k
      stgSecLo := d
      callers := s.callers.set k (c.advance 0) } := by
  rw [step_go hs ha hc hn, exec, execWrOffsetSecLo,
    State.wrote_acting (s := State.stageSecLo d { s with schedule := rest, actor := .caller k }) (k := k) (c := c) _
      ⟨rfl, hc⟩]
  simp only [State.stageSecLo, Ctx.after_next _ hn]

/-- A scheduled caller takes a write of OFFSET_SEC_HI of its sequence (rule R107). -/
theorem step_go_wrOffsetSecHi {s : State} {k : Nat} {c : Ctx} {d : Word} {rest : List Entry}
    (hs : s.schedule = .go k :: rest) (ha : s.attached = true) (hc : s.callers[k]? = some c)
    (hn : c.nextInstr s.params = some (.wrOffsetSecHi d)) :
    step s = .next { s with
      schedule := rest
      actor := .caller k
      stgSecHi := d
      callers := s.callers.set k (c.advance 0) } := by
  rw [step_go hs ha hc hn, exec, execWrOffsetSecHi,
    State.wrote_acting (s := State.stageSecHi d { s with schedule := rest, actor := .caller k }) (k := k) (c := c) _
      ⟨rfl, hc⟩]
  simp only [State.stageSecHi, Ctx.after_next _ hn]

/-- A scheduled caller takes a write of INCREMENT of its sequence (rule R109). -/
theorem step_go_wrIncrement {s : State} {k : Nat} {c : Ctx} {d : Word} {rest : List Entry}
    (hs : s.schedule = .go k :: rest) (ha : s.attached = true) (hc : s.callers[k]? = some c)
    (hn : c.nextInstr s.params = some (.wrIncrement d)) :
    step s = .next { s with
      schedule := rest
      actor := .caller k
      inc := d
      callers := s.callers.set k (c.advance 0) } := by
  rw [step_go hs ha hc hn, exec, execWrIncrement,
    State.wrote_acting (s := State.writeInc d { s with schedule := rest, actor := .caller k }) (k := k) (c := c) _
      ⟨rfl, hc⟩]
  simp only [State.writeInc, Ctx.after_next _ hn]

/-- A scheduled caller at its first step takes the free guard (rule R170). -/
theorem step_go_lockAcq {s : State} {k : Nat} {c : Ctx} {rest : List Entry}
    (hs : s.schedule = .go k :: rest) (ha : s.attached = true) (hc : s.callers[k]? = some c)
    (hn : c.nextInstr s.params = some .lockAcq) (hl : s.lock = none) :
    step s = .next { s with
      schedule := rest
      actor := .caller k
      lock := some k
      callers := s.callers.set k (c.advance 0) } := by
  rw [step_go hs ha hc hn, exec, execLockAcq,
    State.guardStep_next (s := { s with schedule := rest, actor := .caller k }) (k := k) (c := c) _ ⟨rfl, hc⟩ hn,
    State.acquire_free (s := { s with schedule := rest, actor := .caller k }) hc hl]
  simp only [Ctx.after_next _ hn]

/-- A scheduled caller at its first step waits while the guard is held (rule R170). -/
theorem step_go_waits {s : State} {k j : Nat} {c : Ctx} {rest : List Entry}
    (hs : s.schedule = .go k :: rest) (ha : s.attached = true) (hc : s.callers[k]? = some c)
    (hn : c.nextInstr s.params = some .lockAcq) (hl : s.lock = some j) :
    step s = .next { s with schedule := rest, actor := .caller k } := by
  rw [step_go hs ha hc hn, exec, execLockAcq,
    State.guardStep_next (s := { s with schedule := rest, actor := .caller k }) (k := k) (c := c) _ ⟨rfl, hc⟩ hn,
    State.acquire_held (s := { s with schedule := rest, actor := .caller k }) hl]

/-- A scheduled caller at its last step releases the guard it holds and returns (rule R170). -/
theorem step_go_lockRel {s : State} {k : Nat} {c : Ctx} {rest : List Entry}
    (hs : s.schedule = .go k :: rest) (ha : s.attached = true) (hc : s.callers[k]? = some c)
    (hn : c.nextInstr s.params = some .lockRel) (hl : s.lock = some k) :
    step s = .next { s with
      schedule := rest
      actor := .caller k
      lock := none
      callers := s.callers.set k (c.advance 0) } := by
  rw [step_go hs ha hc hn, exec, execLockRel,
    State.guardStep_next (s := { s with schedule := rest, actor := .caller k }) (k := k) (c := c) _ ⟨rfl, hc⟩ hn,
    if_pos hl, State.release_holder (s := { s with schedule := rest, actor := .caller k }) hc]
  simp only [Ctx.after_next _ hn]

/-- The pulse generator's step (rule R190). -/
theorem step_pulse {s : State} {rest : List Entry} (hs : s.schedule = .issue .ps [0xC1] :: rest) :
    step s = .next { s with intPend := true, schedule := rest, actor := .ps } :=
  step_issue hs (i := .pulse) (tail := []) rfl rfl rfl (.inr rfl) rfl

/-- The timebase's step (rule R130). -/
theorem step_tick {s : State} {rest : List Entry} (hs : s.schedule = .issue .tb [0xC0] :: rest) :
    step s = .next (State.tickCounter { s with schedule := rest, actor := .tb }) :=
  step_issue hs (i := .tick) (tail := []) rfl rfl rfl (.inr rfl) rfl

/-- The handler's entry, enabled (rule R193). -/
theorem step_ihEntry {s : State} {rest : List Entry} (hs : s.schedule = .issue .ih [0xC2] :: rest)
    (hp : s.intPend = true) (hi : s.ihState = .idle) (ha : s.attached = true) :
    step s = .next (State.enterHandler { s with schedule := rest, actor := .ih }) := by
  rw [step_issue hs (i := .ihEntry) (tail := []) rfl rfl rfl (.inl ha) rfl]
  simp [exec, execIhEntry, State.entryEnabled, State.irq, hp, hi, ha]

/-- The handler's acknowledgment, behind its entry (rule R194). -/
theorem step_ihAck {s : State} {rest : List Entry}
    (hs : s.schedule = .issue .ih [0x60, 0x00, 0x00, 0x00, 0x01] :: rest)
    (hi : s.ihState = .entered) (ha : s.attached = true) :
    step s = .next { s with intPend := false, ihState := .idle, schedule := rest, actor := .ih } := by
  rw [step_issue hs (i := .wrIntStatus 1) (tail := []) rfl rfl rfl (.inl ha) rfl]
  simp [exec, execWrIntStatus, State.ackHandler, State.clearPend, hi]

end Sys2Proof.Machine
end

