-- ==== Sys2Proof/Tests/Slice0.lean ====
section
/-! SUPPORT. Tests: the well-formedness smoke, words written out from the tables, vectors of 95_test_vectors.md one step
each, and the witnesses of the statements' hypotheses. Expected values come from the spec's tables, never from the model. -/

namespace Sys2Proof.Tests

open Sys2Proof.Machine

/-! ### A small machine -/

/-- The example of the vectors, `CLK_PERIOD = 8` (95_test_vectors.md), with a PPS kind and a base of the test's own. -/
def params8 : Params where
  clkPeriod := 8
  kindPps := 2
  base := 0x1000
  rstCtrSec := 0
  rstCtrNsfx := 0
  rstInc := 0x00800000
  rstOffNs := 0
  rstOffSec := 0
  rstIntPend := false

/-- Two idle callers; the first one acts. -/
def bench : State := State.launch params8 1

/-- The next state, if the outcome is one. -/
def nextOf (o : Host.Outcome State Fault Refusal) : Option State :=
  match o with
  | .next s => some s
  | .fault _ => none
  | .refused _ => none

/-- One instruction on a state. -/
def after (i : Instr) (s : State) : Option State := nextOf (exec i s)

/-- The bench with a schedule. -/
def scheduled (l : List Entry) : State := { bench with schedule := l }

/-- The bench with the first caller inside an operation, the guard held by it, and its turn scheduled. -/
def midway (op : Op) (sp : Nat) (rNs : Word) (tv : TV) : State :=
  { bench with
    lock := some 0
    schedule := [.go 0]
    callers := [{ Ctx.idle with op := op, sp := sp, rNs := rNs, tv := tv }, Ctx.idle] }

/-- The bench with a counter and an offset, staged and active. -/
def composed (sec : DWord) (ns frac : Nat) (offSec : DWord) (offNs : Word) : State :=
  { bench with
    ctrSec := sec
    ctrNsfx := ns * 1048576 + frac
    offSec := offSec
    offNs := offNs
    stgSecLo := offSec.extractLsb' 0 32
    stgSecHi := offSec.extractLsb' 32 32 }

/-- The value the first caller read. -/
def firstRead (o : Option State) : Option Word :=
  match o with
  | some s => s.callers[0]?.map (·.rdata)
  | none => none

/-- The first caller's result. -/
def firstResult (o : Option State) : Option Result :=
  match o with
  | some s => s.callers[0]?.bind (·.result)
  | none => none

/-- The first caller's time value. -/
def firstTv (o : Option State) : Option TV :=
  match o with
  | some s => s.callers[0]?.map (·.tv)
  | none => none

/-! ### Well-formedness (rules R74, R76) -/

theorem test_wf_setTime_negative_seconds : (Instr.setTime ⟨-1, 0⟩).wellFormed = false := by decide
theorem test_wf_setTime_large_seconds : (Instr.setTime ⟨9223372036854775808, 0⟩).wellFormed = false := by decide
theorem test_wf_setTime_negative_ns : (Instr.setTime ⟨0, -1⟩).wellFormed = false := by decide
theorem test_wf_setTime_large_ns : (Instr.setTime ⟨0, 1000000000⟩).wellFormed = false := by decide
theorem test_wf_enable_large_kind : (Instr.enable 4294967296).wellFormed = false := by decide
theorem test_wf_boundaries : (Instr.setTime ⟨9223372036854775807, 999999999⟩).wellFormed = true ∧
    (Instr.setTime ⟨0, 0⟩).wellFormed = true ∧ (Instr.enable 4294967295).wellFormed = true := by decide

/-! ### Decoding: words written out from rules R71, R72 (format bit 0, W, A), R74 (10 000 OP) and R77 (11 000 EV) -/

theorem test_decode_reads_low :
    decode [0b00000000] = .ok (.rdOffsetNs, []) ∧ decode [0b00001000] = .ok (.rdOffsetSecLo, []) ∧
    decode [0b00001100] = .ok (.rdOffsetSecHi, []) ∧ decode [0b00010000] = .ok (.rdIncrement, []) ∧
    decode [0b00010100] = .ok (.rdCurNs, []) ∧ decode [0b00011000] = .ok (.rdCurSecLo, []) := ⟨rfl, rfl, rfl, rfl, rfl, rfl⟩

theorem test_decode_reads_high :
    decode [0b00011100] = .ok (.rdCurSecHi, []) ∧ decode [0b00100000] = .ok (.rdIntStatus, []) ∧
    decode [0b00100100] = .ok (.rdPulseOffset8k, []) ∧ decode [0b00101100] = .ok (.rdCorrectionField0, []) ∧
    decode [0b00110000] = .ok (.rdCorrectionField1, []) := ⟨rfl, rfl, rfl, rfl, rfl⟩

theorem test_decode_writes_low :
    decode [0b01000000, 0x3B, 0x9A, 0xC9, 0xFF] = .ok (.wrOffsetNs 999999999, []) ∧
    decode [0b01001000, 0xFF, 0xFF, 0xFF, 0xFE] = .ok (.wrOffsetSecLo 0xFFFFFFFE, []) ∧
    decode [0b01001100, 0x00, 0x00, 0x00, 0x01] = .ok (.wrOffsetSecHi 1, []) ∧
    decode [0b01010000, 0x00, 0x80, 0x00, 0x08] = .ok (.wrIncrement 0x00800008, []) ∧
    decode [0b01100000, 0x00, 0x00, 0x00, 0x01] = .ok (.wrIntStatus 1, []) := ⟨rfl, rfl, rfl, rfl, rfl⟩

theorem test_decode_writes_refused_by_target :
    decode [0b01010100, 0x00, 0x00, 0x00, 0x05] = .ok (.wrCurNs 5, []) ∧
    decode [0b01011000, 0x00, 0x00, 0x00, 0x05] = .ok (.wrCurSecLo 5, []) ∧
    decode [0b01011100, 0x00, 0x00, 0x00, 0x05] = .ok (.wrCurSecHi 5, []) ∧
    decode [0b01100100, 0x00, 0x00, 0x00, 0x05] = .ok (.wrPulseOffset8k 5, []) ∧
    decode [0b01101100, 0x00, 0x00, 0x00, 0x05] = .ok (.wrCorrectionField0 5, []) ∧
    decode [0b01110000, 0x00, 0x00, 0x00, 0x05] = .ok (.wrCorrectionField1 5, []) := ⟨rfl, rfl, rfl, rfl, rfl, rfl⟩

/-- The operands of log 1: `target` as 8 + 4 bytes, `delta_ns` as 8, `ppb` and `req` as 4, most significant byte first. -/
theorem test_decode_hostops :
    decode [0b10000000] = .ok (.getTime, []) ∧
    decode [0b10000001, 0, 0, 0, 0, 0, 0, 0x13, 0x88, 0, 0, 0, 0xFA] = .ok (.setTime ⟨5000, 250⟩, []) ∧
    decode [0b10000010, 0xFF, 0xFF, 0xFF, 0xFF, 0xFF, 0xFF, 0xFC, 0x18] = .ok (.adjTime (-1000), []) ∧
    decode [0b10000011, 0x00, 0x00, 0x03, 0xE8] = .ok (.adjFreq 1000, []) ∧
    decode [0b10000100, 0x00, 0x00, 0x00, 0x02] = .ok (.enable 2, []) := ⟨rfl, rfl, rfl, rfl, rfl⟩

theorem test_decode_steps :
    decode [0b11000000] = .ok (.tick, []) ∧ decode [0b11000001] = .ok (.pulse, []) ∧
    decode [0b11000010] = .ok (.ihEntry, []) ∧ decode [0b11000011] = .ok (.register, []) ∧
    decode [0b11000100] = .ok (.deregister, []) ∧ decode [0b11000101] = .ok (.lockAcq, []) ∧
    decode [0b11000110] = .ok (.lockRel, []) := ⟨rfl, rfl, rfl, rfl, rfl, rfl, rfl⟩

/-- Vectors DK3 to DK7, DK12, DK13, DK16, DK17. -/
theorem test_decode_reserved :
    decode [0x02] = .error .misaligned ∧ decode [0x04] = .error .reservedOffset ∧
    decode [0x68] = .error .reservedOffset ∧ decode [0x7C] = .error .reservedOffset ∧
    decode [0x7F] = .error .misaligned ∧ decode [0x85] = .error .reservedKey ∧
    decode [0x88] = .error .reservedKey ∧ decode [0xC7] = .error .reservedKey ∧
    decode [0xFF] = .error .reservedKey := ⟨rfl, rfl, rfl, rfl, rfl, rfl, rfl, rfl, rfl⟩

theorem test_decode_truncated : decode [] = .error .noKey ∧ decode [0x40, 0, 0, 0] = .error .truncated := ⟨rfl, rfl⟩

/-- Vector BY1: the table word of `WR_INCREMENT` with bytes 0x00, 0x80, 0x00, 0x00 behind its key. -/
theorem test_table_word : decodeTableWord 40 0x0000800050 = some (.wrIncrement 0x00800000) := by decide

/-- The bytes the first caller's last read returned. -/
def firstBytes (o : Option State) : Option (List Byte) :=
  match o with
  | some s => s.callers[0]?.map (·.busBytes)
  | none => none

/-- Vector BY2: a host that reads CUR_NS = 999999999 at `BASE + 0x14` (rule R53). -/
theorem test_BY2 : firstBytes (nextOf (step { composed 0 999999990 0 0 9 with
    schedule := [.bus (.caller 0) (.read (0x1000 + 0x14) 4)] })) = some [0x3B, 0x9A, 0xC9, 0xFF] := by decide

/-- After detach: a caller's step, a reserved key and an idle caller's turn (log 17, log 39). -/
theorem test_after_detach :
    step { scheduled [.issue (.caller 0) [0x80]] with attached := false } = .fault .detached ∧
    step { scheduled [.issue (.caller 0) [0x85]] with attached := false } = .refused .reservedKey ∧
    step { scheduled [.go 0] with attached := false } = .next { scheduled [] with attached := false } := ⟨rfl, rfl, rfl⟩

/-! ### Register accesses (vectors RG) -/

theorem test_RG6 : firstRead (after .rdOffsetNs { bench with offNs := 0x1DCD6500 }) = some 0x1DCD6500 := by decide

theorem test_RG4_read : firstRead (after .rdOffsetSecLo { bench with offSec := 0xFFFFFFFE, stgSecLo := 0xFFFFFFFE }) =
    some 0xFFFFFFFE := by decide

/-- Vector RG3: either of the two words. -/
theorem test_RG3 : ∃ w, firstRead (after .rdOffsetSecLo { bench with offSec := 5, stgSecLo := 0xFFFFFFFE }) = some w ∧
    (w = 0xFFFFFFFE ∨ w = 5) := by
  refine ⟨_, rfl, ?_⟩
  change drawOneOf _ 0xFFFFFFFE 5 = _ ∨ drawOneOf _ 0xFFFFFFFE 5 = _
  unfold drawOneOf
  split <;> simp

theorem test_RG7 : firstRead (after .rdOffsetSecHi { bench with offSec := 12, stgSecLo := 12 }) = some 0 := by decide

theorem test_RG9 : firstRead (after .rdIncrement bench) = some (Config.freeWord 0) ∧
    (after .rdIncrement bench).map (·.draws) = some 1 := ⟨rfl, rfl⟩

theorem test_RG10 : firstRead (after .rdCurNs (composed 0 999999990 0 0 20)) = some 10 := by decide

/-- Vector M6: the fraction is not seen. -/
theorem test_M6 : firstRead (after .rdCurNs (composed 3 500000000 1048575 0 500000000)) = some 0 := by decide

theorem test_RG11 : firstRead (after .rdCurSecLo (composed 0 999999990 0 0 20)) = some 1 := by decide

theorem test_M5_low : firstRead (after .rdCurSecLo (composed 10 0 0 0xFFFFFFFE 500000000)) = some 8 := by decide

theorem test_M3_high : firstRead (after .rdCurSecHi (composed 0xFFFFFFFF 999999999 0 0 1)) = some 1 := by decide

theorem test_M4_high : firstRead (after .rdCurSecHi (composed 0xFFFFFFFFFFFFFFFF 999999999 0 0 999999999)) = some 0 := by decide

theorem test_RG13 : firstRead (after .rdCurNs { bench with offNs := 1000000000 }) = some (Config.freeWord 0) := rfl

theorem test_RG15 : (after .rdIntStatus { bench with intPend := true }).map (·.intPend) = some true := by decide

theorem test_RG19 : firstRead (after .rdPulseOffset8k bench) = some (Config.freeWord 0) ∧
    firstRead (after .rdCorrectionField0 bench) = some (Config.freeWord 0) ∧
    firstRead (after .rdCorrectionField1 bench) = some (Config.freeWord 0) := ⟨rfl, rfl, rfl⟩

theorem test_RG1 : (after (.wrOffsetNs 250) { bench with stgSecHi := 0, stgSecLo := 7, offSec := 5, offNs := 1 }).map
    (fun t => (t.offSec, t.offNs, t.stgSecLo)) = some (7, 250, 7) := by decide

/-- The order of the two staged words: the high word is bits 63:32 (rule R103). -/
theorem test_commit_word_order : (after (.wrOffsetNs 0) { bench with stgSecHi := 1, stgSecLo := 3 }).map (·.offSec) =
    some 0x100000003 := by decide

theorem test_RG2 : (after (.wrOffsetSecLo 0xFFFFFFFE) { bench with offSec := 5, stgSecLo := 5 }).map
    (fun t => (t.stgSecLo, t.offSec)) = some (0xFFFFFFFE, 5) := by decide

theorem test_stage_high : (after (.wrOffsetSecHi 1) bench).map (fun t => (t.stgSecHi, t.stgSecLo, t.offSec)) =
    some (1, 0, 0) := by decide

theorem test_RG8 : (after (.wrIncrement 0x00800008) bench).map (·.inc) = some 0x00800008 := by decide

theorem test_RG14_RG20 : exec (.wrCurNs 5) bench = .refused .writeToReadOnly ∧
    exec (.wrCurSecLo 5) bench = .refused .writeToReadOnly ∧ exec (.wrCurSecHi 5) bench = .refused .writeToReadOnly ∧
    exec (.wrPulseOffset8k 5) bench = .refused .writeToUnused ∧
    exec (.wrCorrectionField0 5) bench = .refused .writeToUnused ∧
    exec (.wrCorrectionField1 0) bench = .refused .writeToUnused := ⟨rfl, rfl, rfl, rfl, rfl, rfl⟩

/-- Vector RG14 in the spec's terms: the mark is set and nothing else changes but the consumed entry. -/
theorem test_RG14_mark : settle (scheduled [.issue (.caller 0) [0x54, 0, 0, 0, 5]]) = { bench with refused := true } := by
  decide

theorem test_RG16 : (after (.wrIntStatus 1) { bench with intPend := true }).map (·.intPend) = some false := by decide

theorem test_RG17 : (after (.wrIntStatus 0xFFFFFFFE) { bench with intPend := true }).map (·.intPend) = some true := by
  decide

/-! ### The counter (vectors TK) -/

theorem test_TK2 : (after .tick { bench with ctrNsfx := 999999992 * 1048576 }).map (fun t => (t.ctrSec, t.ctrNsfx)) =
    some (1, 0) := by decide

theorem test_TK10 : (after .tick { bench with ctrNsfx := 999995904 * 1048576, inc := 0xFFFFFFFF }).map
    (fun t => (t.ctrSec, t.ctrNsfx)) = some (0, 999999999 * 1048576 + 1048575) := by decide

/-! ### The trims (vectors FQ, T) and the time controller (vectors S, GT, LK) -/

theorem test_FQ10 : (after (.adjFreq (-1000000)) bench).map (·.inc) = some 0x007FDF3C := by decide

theorem test_FQ16 : (after (.adjFreq (-2147483648)) bench).map (·.inc) = some 0xFF6D1F42 := by decide

/-- Vectors T10 and T12: one step of the fine path. -/
theorem test_T10_T12 :
    (nextOf (step (midway (.adjTime (-8388609)) 1 0 ⟨0, 0⟩))).map (·.inc) = some 0xFFFFFFFF ∧
    (nextOf (step (midway (.adjTime (-0x3FFFFFFF)) 1 0 ⟨0, 0⟩))).map (·.inc) = some 0xC0800001 := by decide

/-- Vector T18: the second read of the coarse path computes the new offset. -/
theorem test_T18 : firstTv (nextOf (step (midway (.adjTime (-9223372036854775808)) 2 0 ⟨0, 0⟩))) =
    some ⟨-9223372037, 145224192⟩ := by decide

/-- Vector S1: the second read of `set_time` computes the delta. -/
theorem test_S1 : firstTv (nextOf (step { midway (.setTime ⟨5000, 250⟩) 5 0 ⟨0, 0⟩ with ctrSec := 1000 })) =
    some ⟨4000, 250⟩ := by decide

/-- Vector S5: one nanosecond short of a second ahead is clamped. -/
theorem test_S5 : firstTv (nextOf (step { midway (.setTime ⟨1001, 0⟩) 5 1 ⟨7, 7⟩ with ctrSec := 1000 })) =
    some ⟨0, 0⟩ := by decide

/-- Vector GT2: the last step returns the low 32 bits of the seconds. -/
theorem test_GT2 : firstResult (nextOf (step (midway .getTime 3 42 ⟨5, 42⟩))) = some (.okTime ⟨5, 42⟩) := by decide

theorem test_getTime_starts : (after .getTime bench).map (fun t => (t.lock, t.callers.map (·.op))) =
    some (some 0, [.getTime, .idle]) := by decide

/-- Vector GT3: it waits for the guard. -/
theorem test_GT3 : (after .getTime { bench with lock := some 1 }).map (fun t => (t.lock, t.callers.map (·.sp))) =
    some (some 1, [0, 0]) := by decide

theorem test_setTime_starts : (after (.setTime ⟨5000, 250⟩) bench).map (fun t => (t.lock, t.callers.map (·.sp))) =
    some (some 0, [1, 0]) := by decide

theorem test_adjTime_starts : (after (.adjTime 5) bench).map (fun t => (t.lock, t.callers.map (·.op), t.inc)) =
    some (some 0, [.adjTime 5, .idle], 0x00800000) := by decide

/-- Vectors LK1 to LK3: the first and the last step of a guarded operation. -/
theorem test_LK1 : (after .lockAcq { midway .getTime 0 0 ⟨0, 0⟩ with lock := none }).map (·.lock) = some (some 0) := by decide

theorem test_LK2 : after .lockAcq { midway .getTime 0 0 ⟨0, 0⟩ with lock := some 1 } =
    some { midway .getTime 0 0 ⟨0, 0⟩ with lock := some 1 } := by decide

theorem test_LK3 : (after .lockRel (midway .getTime 3 0 ⟨0, 0⟩)).map (·.lock) = some none := by decide

/-- Rule R77: the guard steps are steps within a guarded operation (log 16). -/
theorem test_guard_steps_outside : exec .lockAcq bench = .refused .outOfSequence ∧
    exec .lockRel bench = .refused .outOfSequence := ⟨rfl, rfl⟩

/-- The table words of the two guard steps run as the first step after the launch (log 2). -/
theorem test_guard_steps_placed : (nextOf (step (bench.withFetchWord 8 0xC5))).map (·.lock) = some (some 0) ∧
    (nextOf (step (bench.withFetchWord 8 0xC6))).map (·.lock) = some none := by decide

/-- Rule R124: a misaligned BUS key is a reserved one (vector DK3, log 13); another width is refused first (log 38). -/
theorem test_refusal_reasons : step (scheduled [.issue (.caller 0) [0x02]]) = .refused .reservedOffset ∧
    step (scheduled [.bus (.caller 0) (.read (0x1000 + 2) 4)]) = .refused .reservedOffset ∧
    step (scheduled [.bus (.caller 0) (.read (0x1000 + 4) 2)]) = .refused .badWidthOrAlignment := ⟨rfl, rfl, rfl⟩

/-- Rule R253: a run that stops inside an operation has not ended. -/
theorem test_run_end : step bench = .fault .runEnded ∧
    step { midway .getTime 2 0 ⟨0, 0⟩ with schedule := [] } = .fault .scheduleCut ∧
    step { bench with ihState := .entered } = .fault .scheduleCut := ⟨rfl, rfl, rfl⟩

/-! ### The pulse converter (vectors IH) and enable control (vectors EN) -/

theorem test_IH1 : (after .pulse bench).map (·.intPend) = some true := by decide

theorem test_IH5 : (after .ihEntry { bench with intPend := true, pulseCount := 127, ppsEnabled := true, registered := true }).map
    (fun t => (t.pulseCount, t.events)) = some (0, [.pps]) := by decide

theorem test_IH7 : (after .ihEntry { bench with intPend := true, pulseCount := 127, ppsEnabled := true }).map
    (fun t => (t.pulseCount, t.events, t.ihState)) = some (0, [], .entered) := by decide

theorem test_IH8 : (after (.wrIntStatus 1) { bench with actor := .ih, intPend := true, ihState := .entered }).map
    (fun t => (t.intPend, t.ihState)) = some (false, .idle) := by decide

theorem test_EN1 : (after (.enable 2) bench).map (·.ppsEnabled) = some true ∧
    firstResult (after (.enable 2) bench) = some .ok := by decide

theorem test_EN4 : (after (.enable 3) { bench with ppsEnabled := true }).map (·.ppsEnabled) = some true ∧
    firstResult (after (.enable 3) bench) = some .unsupported := by decide

theorem test_register : (after .register bench).map (·.registered) = some true ∧
    (after .deregister { bench with registered := true }).map (·.registered) = some false := by decide

/-! ### Witnesses: states and operands that meet the hypotheses of each statement -/

/-- The invariant of a machine with two callers, from its parts. -/
theorem inv_of_two {s : State} {a b : Ctx} (hc : s.callers = [a, b]) (hp : s.params.Legal)
    (h1 : s.ctrNsfx < Config.nsfxPerSec) (h2 : s.pulseCount < Config.pulsesPerSecond) (ha : a.Legal) (hb : b.Legal)
    (ga : a.Inside → s.lock = some 0) (gb : b.Inside → s.lock = some 1) (hl : ∀ k, s.lock = some k → ∃ c, s.callers[k]? = some c ∧ c.Inside) :
    s.Inv where
  params := hp
  counter := h1
  count := h2
  someCaller := by rw [hc]; exact List.cons_ne_nil _ _
  legal k c h := by
    rw [hc] at h
    match k, h with
    | 0, h => cases h; exact ha
    | 1, h => cases h; exact hb
    | n + 2, h => cases h
  guard k c h hi := by
    rw [hc] at h
    match k, h with
    | 0, h => cases h; exact ga hi
    | 1, h => cases h; exact gb hi
    | n + 2, h => cases h
  holder := hl

theorem params8_legal : params8.Legal := by unfold Params.Legal; decide

theorem idle_legal : Ctx.idle.Legal := by unfold Ctx.Legal; exact ⟨by decide, fun h => by cases h⟩

theorem bench_inv : bench.Inv :=
  inv_of_two rfl params8_legal (by decide) (by decide) idle_legal idle_legal (fun h => absurd rfl h.1)
    (fun h => absurd rfl h.1) (fun k h => by cases h)

/-- A caller waiting for the guard, and one inside `get_time`, holding it. -/
def contended (l : List Entry) : State :=
  { bench with
    lock := some 1
    schedule := l
    callers := [{ Ctx.idle with op := .adjTime 5 }, { Ctx.idle with op := .getTime, sp := 2 }] }

theorem contended_inv (l : List Entry) : (contended l).Inv :=
  inv_of_two rfl params8_legal bench_inv.counter bench_inv.count ⟨by decide, fun h => by cases h⟩ ⟨by decide, fun h => by cases h⟩
    (fun h => absurd h.2 (by decide)) (fun _ => rfl) (fun k h => by cases h; exact ⟨_, rfl, by decide, by decide⟩)

/-- An idle caller with a direct write scheduled, and one inside `get_time`. -/
def besideGetTime : State :=
  { bench with
    lock := some 1
    schedule := [.issue (.caller 0) [0x40, 0x00, 0x00, 0x00, 0xFA]]
    callers := [Ctx.idle, { Ctx.idle with op := .getTime, sp := 2 }] }

theorem besideGetTime_inv : besideGetTime.Inv :=
  inv_of_two rfl params8_legal (by decide) (by decide) idle_legal ⟨by decide, fun h => by cases h⟩
    (fun h => absurd rfl h.1) (fun _ => rfl) (fun k h => by cases h; exact ⟨_, rfl, by decide, by decide⟩)

/-- The second caller at the last write of `set_time`. -/
def settingTime : State :=
  { bench with
    lock := some 1
    schedule := [.go 1]
    callers := [Ctx.idle, { Ctx.idle with op := .setTime ⟨5000, 250⟩, sp := 8, tv := ⟨4000, 999999999⟩ }] }

theorem settingTime_inv : settingTime.Inv :=
  inv_of_two rfl params8_legal (by decide) (by decide) idle_legal ⟨by decide, fun _ => ⟨by decide, by decide⟩⟩
    (fun h => absurd rfl h.1) (fun _ => rfl) (fun k h => by cases h; exact ⟨_, rfl, by decide, by decide⟩)

theorem witness_DecodeOfEncodeIsTheInstruction :
    ∃ i : Instr, i.wellFormed = true ∧ i = .setTime ⟨9223372036854775807, 999999999⟩ := ⟨_, by decide, rfl⟩

theorem witness_EncodeOfDecodeIsTheCode : ∃ bs i rest, decode bs = .ok (i, rest) ∧ rest ≠ [] :=
  ⟨[0x40, 0x00, 0x00, 0x00, 0xFA, 0x07], .wrOffsetNs 250, [0x07], rfl, by decide⟩

/-- Both ways a BUS key is reserved, at 0x01, 0x3F (misaligned), 0x04 and 0x3C (no register). -/
theorem witness_ReservedOffsetIsRefused :
    (∃ (s : State) (key : Byte), key = 0x01 ∧ key.getLsbD 7 = false ∧ key.extractLsb' 0 2 ≠ 0 ∧
      s.schedule = [.issue (.caller 0) [key]]) ∧
    (∃ (s : State) (key : Byte), key = 0x3F ∧ key.getLsbD 7 = false ∧ key.extractLsb' 0 2 ≠ 0 ∧
      s.schedule = [.issue (.caller 0) [key]]) ∧
    (∃ (s : State) (key : Byte), key = 0x04 ∧ key.getLsbD 7 = false ∧
      key.extractLsb' 0 6 ∈ ([0x04, 0x28, 0x34, 0x38, 0x3C] : List (BitVec 6)) ∧
      s.schedule = [.issue (.caller 0) [key]]) ∧
    (∃ (s : State) (key : Byte), key = 0x7C ∧ key.getLsbD 7 = false ∧
      key.extractLsb' 0 6 ∈ ([0x04, 0x28, 0x34, 0x38, 0x3C] : List (BitVec 6)) ∧
      s.schedule = [.issue (.caller 0) [key]]) :=
  ⟨⟨scheduled [.issue (.caller 0) [0x01]], 0x01, rfl, by decide, by decide, rfl⟩,
    ⟨scheduled [.issue (.caller 0) [0x3F]], 0x3F, rfl, by decide, by decide, rfl⟩,
    ⟨scheduled [.issue (.caller 0) [0x04]], 0x04, rfl, by decide, by decide, rfl⟩,
    ⟨scheduled [.issue (.caller 0) [0x7C]], 0x7C, rfl, by decide, by decide, rfl⟩⟩

/-- The ends of the two reserved ranges. -/
theorem witness_ReservedKeyIsRefused : (∀ key ∈ ([0x85, 0xBF, 0xC7, 0xFF] : List Byte),
    (0x85 ≤ key.toNat ∧ key.toNat ≤ 0xBF) ∨ 0xC7 ≤ key.toNat) ∧
    (∃ s : State, s.schedule = [.issue (.caller 0) [0x85]]) ∧
    (∃ s : State, s.schedule = [.issue (.caller 0) (0x70 :: wordBytes 5)]) :=
  ⟨by decide, ⟨scheduled [.issue (.caller 0) [0x85]], rfl⟩, ⟨scheduled [.issue (.caller 0) (0x70 :: wordBytes 5)], rfl⟩⟩

/-- The last offset, and the last register. -/
theorem witness_HostBusReachesTheOffset : (∃ (off : Nat) (bytes : List Byte), off < 64 ∧ off = 63 ∧ bytes.length = 4) ∧
    (∃ r : Reg, r.offset.toNat = 0x30) :=
  ⟨⟨63, [0, 0, 0, 0], by decide, rfl, rfl⟩, ⟨.correctionField1, rfl⟩⟩

/-- A read and a write of each kind: of another width (at a register, at a reserved offset, at a read-only register),
misaligned, aligned, and at a register. -/
theorem witness_OtherWidthOrMisalignedIsRefused :
    (∀ p ∈ ([(0, 2), (4, 8)] : List (Nat × Nat)), ∃ s : State, p.1 < 64 ∧
      s.schedule = [.bus (.caller 0) (.read (s.params.base + p.1) p.2)] ∧ p.2 ≠ 4) ∧
    (∃ (s : State) (off : Nat), off < 64 ∧ s.schedule = [.bus (.caller 0) (.read (s.params.base + off) 4)] ∧ off % 4 ≠ 0) ∧
    (∃ (s : State) (off : Nat), off < 64 ∧ s.schedule = [.bus (.caller 0) (.read (s.params.base + off) 4)] ∧ off % 4 = 0) ∧
    (∃ (s : State) (off : Nat), off < 64 ∧ s.schedule = [.bus (.caller 0) (.read (s.params.base + off) 4)] ∧
      ∃ r : Reg, r.offset.toNat = off) ∧
    (∃ (s : State) (off : Nat) (bytes : List Byte), off < 64 ∧
      s.schedule = [.bus (.caller 0) (.write (s.params.base + off) bytes)] ∧ bytes.length ≠ 4) ∧
    (∃ (s : State) (off : Nat) (bytes : List Byte), off < 64 ∧
      s.schedule = [.bus (.caller 0) (.write (s.params.base + off) bytes)] ∧ bytes.length = 4 ∧ off % 4 ≠ 0) ∧
    (∃ (s : State) (off : Nat) (bytes : List Byte), off < 64 ∧
      s.schedule = [.bus (.caller 0) (.write (s.params.base + off) bytes)] ∧ bytes.length = 4 ∧ off % 4 = 0 ∧
      ∃ r : Reg, r.offset.toNat = off) := by
  refine ⟨fun p hp => ?_, ⟨scheduled [.bus (.caller 0) (.read (0x1000 + 63) 4)], 63, by decide, rfl, by decide⟩,
    ⟨scheduled [.bus (.caller 0) (.read (0x1000 + 60) 4)], 60, by decide, rfl, by decide⟩,
    ⟨scheduled [.bus (.caller 0) (.read (0x1000 + 0x30) 4)], 0x30, by decide, rfl, .correctionField1, rfl⟩,
    ⟨scheduled [.bus (.caller 0) (.write (0x1000 + 0x14) [1])], 0x14, [1], by decide, rfl, by decide⟩,
    ⟨scheduled [.bus (.caller 0) (.write (0x1000 + 1) [0, 0, 0, 1])], 1, [0, 0, 0, 1], by decide, rfl, rfl, by decide⟩,
    ⟨scheduled [.bus (.caller 0) (.write (0x1000 + 0) [0, 0, 0, 1])], 0, [0, 0, 0, 1], by decide, rfl, rfl, rfl, .offsetNs, rfl⟩⟩
  refine ⟨scheduled [.bus (.caller 0) (.read (0x1000 + p.1) p.2)], ?_, rfl, ?_⟩ <;>
    (simp only [List.mem_cons, List.not_mem_nil, or_false] at hp; rcases hp with rfl | rfl <;> decide)

theorem witness_BytesAreBigEndian : ∃ (s : State) (c : Ctx), s.attached = true ∧ s.callers[0]? = some c ∧ c.op = .idle ∧
    s.schedule = [.bus (.caller 0) (.write (s.params.base + 0x10) [0x00, 0x80, 0x00, 0x00])] :=
  ⟨scheduled [.bus (.caller 0) (.write (0x1000 + 0x10) [0x00, 0x80, 0x00, 0x00])], Ctx.idle, rfl, rfl, rfl, rfl⟩

/-- An idle caller's step while attached, and the timebase's after detach. -/
theorem witness_StepRunsTheDecodedInstruction :
    (∃ (s : State) (a : Agent) (code : List Byte) (i : Instr), s.schedule = [.issue a code] ∧ decode code = .ok (i, []) ∧
      a.has i = true ∧ s.hasAgent a = true ∧ s.attached = true ∧ s.breaksOrder a i = false) ∧
    (∃ (s : State) (a : Agent) (code : List Byte) (i : Instr), s.schedule = [.issue a code] ∧ decode code = .ok (i, []) ∧
      a.has i = true ∧ s.hasAgent a = true ∧ s.attached = false ∧ a = .tb ∧ s.breaksOrder a i = false) :=
  ⟨⟨scheduled [.issue (.caller 1) [0x80]], .caller 1, [0x80], .getTime, rfl, rfl, rfl, rfl, rfl, rfl⟩,
    ⟨{ scheduled [.issue .tb [0xC0]] with attached := false }, .tb, [0xC0], .tick, rfl, rfl, rfl, rfl, rfl, rfl, rfl⟩⟩

/-- A word of each of the three kinds. -/
theorem witness_PlacedWordRunsNext : ∀ p ∈ ([(0xC5, .lockAcq), (0xC6, .lockRel), (0xC0, .tick)] : List (Nat × Instr)),
    decodeTableWord 8 p.1 = some p.2 := by decide

theorem witness_GoRunsTheNextStep : ∃ (s : State) (c : Ctx) (i : Instr), s.schedule = [.go 0] ∧ s.attached = true ∧
    s.callers[0]? = some c ∧ c.nextInstr s.params = some i :=
  ⟨midway .getTime 1 0 ⟨0, 0⟩, _, .rdCurNs, rfl, rfl, rfl, rfl⟩

/-- An acting caller with no operation in progress, and an agent that is no caller. -/
theorem witness_ReadsLeaveTheBlockAlone : (∃ (s : State) (c : Ctx), s.Acting 0 c ∧ c.op = .idle) ∧
    (∃ s : State, s.actor ≠ .caller 0) :=
  ⟨⟨bench, Ctx.idle, ⟨rfl, rfl⟩, rfl⟩, ⟨{ bench with actor := .tb }, by decide⟩⟩

/-- Staged and active words equal, and both different. -/
theorem witness_OffsetReadsGiveTheActiveOffset :
    (∃ (s : State) (c : Ctx), s.Acting 0 c ∧ s.stgSecLo = s.offSec.extractLsb' 0 32 ∧
      s.stgSecHi = s.offSec.extractLsb' 32 32) ∧
    (∃ (s : State) (c : Ctx), s.Acting 0 c ∧ s.stgSecLo ≠ s.offSec.extractLsb' 0 32 ∧
      s.stgSecHi ≠ s.offSec.extractLsb' 32 32) :=
  ⟨⟨bench, Ctx.idle, ⟨rfl, rfl⟩, by decide, by decide⟩,
    ⟨{ bench with stgSecLo := 1, stgSecHi := 1 }, Ctx.idle, ⟨rfl, rfl⟩, by decide, by decide⟩⟩

/-- The largest sum without a carry and the smallest with one (vectors M1, M2). -/
theorem witness_CurrentTimeReadsTheComposition :
    (∃ (s : State) (c : Ctx) (n : Nat) (ns : Word) (sec : DWord), s.Acting 0 c ∧ s.ctrNsfx < 1000000000 * 1048576 ∧
      s.offNs.toNat < 1000000000 ∧ n = s.ctrNsfx / 1048576 + s.offNs.toNat ∧ n = 999999999 ∧
      ns = BitVec.ofNat 32 (if n < 1000000000 then n else n - 1000000000) ∧
      sec = s.ctrSec + s.offSec + (if n < 1000000000 then 0 else 1)) ∧
    (∃ (s : State) (c : Ctx) (n : Nat) (ns : Word) (sec : DWord), s.Acting 0 c ∧ s.ctrNsfx < 1000000000 * 1048576 ∧
      s.offNs.toNat < 1000000000 ∧ n = s.ctrNsfx / 1048576 + s.offNs.toNat ∧ n = 1000000000 ∧
      ns = BitVec.ofNat 32 (if n < 1000000000 then n else n - 1000000000) ∧
      sec = s.ctrSec + s.offSec + (if n < 1000000000 then 0 else 1)) :=
  ⟨⟨composed 0 999999990 0 0 9, Ctx.idle, 999999999, _, _, ⟨rfl, rfl⟩, by decide, by decide, by decide, rfl, rfl, rfl⟩,
    ⟨composed 0 999999990 0 0 10, Ctx.idle, 1000000000, _, _, ⟨rfl, rfl⟩, by decide, by decide, by decide, rfl, rfl, rfl⟩⟩

theorem witness_UnknownReadsDraw :
    (∃ (s : State) (c : Ctx) (i : Instr), s.Acting 0 c ∧ i = .rdIncrement) ∧
    (∃ (s : State) (c : Ctx) (i : Instr), s.Acting 0 c ∧ 1000000000 ≤ s.offNs.toNat ∧ i = .rdCurNs) :=
  ⟨⟨bench, Ctx.idle, _, ⟨rfl, rfl⟩, rfl⟩, ⟨{ bench with offNs := 1000000000 }, Ctx.idle, _, ⟨rfl, rfl⟩, by decide, rfl⟩⟩

theorem witness_IntStatusReadsPendInBitZero : ∃ (s : State) (c : Ctx), s.Acting 0 c ∧ s.intPend = true :=
  ⟨{ bench with intPend := true }, Ctx.idle, ⟨rfl, rfl⟩, rfl⟩

theorem witness_OffsetNsWriteCommitsBothWords : ∃ (s : State) (c : Ctx), s.Acting 0 c := ⟨bench, Ctx.idle, rfl, rfl⟩

theorem witness_SecondsWritesOnlyStage : ∃ (s : State) (c : Ctx), s.Acting 1 c :=
  ⟨{ bench with actor := .caller 1 }, Ctx.idle, rfl, rfl⟩

theorem witness_IncrementWriteSetsTheRate : ∃ (s : State) (c : Ctx), s.Acting 0 c ∧ s.ctrNsfx = 999999999 * 1048576 :=
  ⟨composed 0 999999999 0 0 0, Ctx.idle, ⟨rfl, rfl⟩, by decide⟩

theorem witness_IntStatusWriteOneClears : ∃ (s : State) (c : Ctx) (d : Word), s.Acting 0 c ∧ d.getLsbD 0 = true :=
  ⟨bench, Ctx.idle, 1, ⟨rfl, rfl⟩, by decide⟩

/-- Vector O2: `write_offset (-2, 500000000)`. -/
theorem witness_WriteOffsetSequenceSetsTheOffset :
    ∃ (s1 s2 s3 t1 t2 t3 : State) (tv : TV), tv = ⟨-2, 500000000⟩ ∧ NsInRange tv ∧
      exec (.wrOffsetSecHi 0) s1 = .next t1 ∧ s2.stgSecHi = t1.stgSecHi ∧
      exec (.wrOffsetSecLo (low32 tv.sec)) s2 = .next t2 ∧ s3.stgSecHi = t2.stgSecHi ∧ s3.stgSecLo = t2.stgSecLo ∧
      exec (.wrOffsetNs (low32 tv.ns)) s3 = .next t3 :=
  ⟨bench, bench, { bench with stgSecLo := 0xFFFFFFFE }, _, _, _, ⟨-2, 500000000⟩, rfl, ⟨by decide, by decide⟩, rfl, rfl, rfl,
    rfl, by decide, rfl⟩

theorem witness_RepeatedWritesAreIdempotent : ∃ (s : State) (c : Ctx) (d : Word) (i : Instr), s.Acting 0 c ∧ c.op = .idle ∧
    i = .wrOffsetNs d := ⟨bench, Ctx.idle, 3, _, ⟨rfl, rfl⟩, rfl, rfl⟩

/-- The last sum below one second and the first that carries (vectors TK3, TK2). -/
theorem witness_TickAdvancesTheCounter :
    (∃ s : State, s.ctrNsfx + s.inc.toNat < 1000000000 * 1048576 ∧ s.ctrNsfx = 999999991 * 1048576) ∧
    (∃ s : State, 1000000000 * 1048576 ≤ s.ctrNsfx + s.inc.toNat ∧ s.ctrNsfx = 999999992 * 1048576) :=
  ⟨⟨composed 0 999999991 0 0 0, by decide, by decide⟩, ⟨composed 0 999999992 0 0 0, by decide, by decide⟩⟩

theorem witness_TicksAccumulateExactly : ∃ (s : State) (rest : List Entry), s.ctrNsfx < 1000000000 * 1048576 ∧
    s.schedule = List.replicate 3 (.issue .tb [0xC0]) ++ rest :=
  ⟨scheduled [.issue .tb [0xC0], .issue .tb [0xC0], .issue .tb [0xC0], .go 0], [.go 0], by decide, rfl⟩

theorem witness_LowSecondsAreExactModulo32 :
    (∃ s t : State, s.offNs.toNat < 1000000000 ∧ t.offNs = s.offNs ∧ t.ctrNsfx = s.ctrNsfx ∧
      t.ctrSec.extractLsb' 0 32 = s.ctrSec.extractLsb' 0 32 ∧ t.offSec.extractLsb' 0 32 = s.offSec.extractLsb' 0 32 ∧
      t.ctrSec ≠ s.ctrSec ∧ t.offSec ≠ s.offSec) ∧
    (∃ (s t : State), t.offNs = s.offNs ∧ t.ctrNsfx = s.ctrNsfx ∧ t.ctrSec = s.ctrSec ∧ s.offSec = 0 ∧
      t.offSec = (low32 (-2)).setWidth 64) :=
  ⟨⟨composed 5 0 0 7 999999999, composed 0x100000005 0 0 0x100000007 999999999, by decide, by decide, by decide, by decide,
      by decide, by decide, by decide⟩,
    ⟨bench, { bench with offSec := 0xFFFFFFFE }, rfl, rfl, rfl, rfl, by decide⟩⟩

/-- Vectors FQ4 and FQ14, and the ends of `i32`. -/
theorem witness_AdjustFrequencyWritesTheTrim : ∀ ppb ∈ ([120, -999999999, 2147483647, -2147483648] : List Word),
    bench.Acting 0 Ctx.idle ∧ Ctx.idle.op = .idle ∧
    ∃ delta : Int, delta = ((bench.params.clkPeriod * 1048576 * ppb.toInt.natAbs / 1000000000 : Nat) : Int) :=
  fun _ _ => ⟨⟨rfl, rfl⟩, rfl, _, rfl⟩

/-- The bound 2048 of rule R161 (d), at the end of the advertised range. -/
theorem witness_TrimIsSymmetricAndBounded : ∃ (p : Params) (ppb : Int), p.Legal ∧ ppb.natAbs ≤ 999999999 ∧
    ppb = -999999999 ∧ p.clkPeriod = 2048 :=
  ⟨{ params8 with clkPeriod := 2048 }, -999999999, by unfold Params.Legal; decide, by decide, rfl, rfl⟩

/-- At the first step the guard free, held by the other caller and by the acting one; at the last step held by the acting
caller (the last steps of `get_time` and of the fine path) and by the other one; and a caller at neither step. -/
theorem witness_GuardIsTakenFreeAndHeldOtherwise :
    (∀ l ∈ ([none, some 1, some 0] : List (Option Nat)), ∃ (s : State) (c : Ctx), s.Acting 0 c ∧ c.op ≠ .idle ∧ c.sp = 0 ∧
      s.lock = l) ∧
    (∃ (s : State) (c : Ctx), s.Acting 0 c ∧ c.op = .getTime ∧ c.sp = c.lastStep ∧ s.lock = some 0) ∧
    (∃ (s : State) (c : Ctx), s.Acting 0 c ∧ c.op = .adjTime 5 ∧ c.sp = c.lastStep ∧ s.lock = some 0) ∧
    (∃ (s : State) (c : Ctx), s.Acting 0 c ∧ c.op ≠ .idle ∧ c.sp = c.lastStep ∧ s.lock ≠ some 0) ∧
    (∃ (s : State) (c : Ctx), s.Acting 0 c ∧ c.op ≠ .idle ∧ c.sp ≠ 0 ∧ c.sp ≠ c.lastStep) ∧
    (∃ (s : State) (c : Ctx), s.Acting 0 c ∧ c.op = .idle) :=
  ⟨fun l _ => ⟨{ midway .getTime 0 0 ⟨0, 0⟩ with lock := l }, _, ⟨rfl, rfl⟩, by decide, rfl, rfl⟩,
    ⟨midway .getTime 3 0 ⟨0, 0⟩, _, ⟨rfl, rfl⟩, rfl, rfl, rfl⟩,
    ⟨midway (.adjTime 5) 2 0 ⟨0, 0⟩, _, ⟨rfl, rfl⟩, rfl, by decide, rfl⟩,
    ⟨{ midway .getTime 3 0 ⟨0, 0⟩ with lock := some 1 }, _, ⟨rfl, rfl⟩, by decide, rfl, by decide⟩,
    ⟨midway .getTime 1 0 ⟨0, 0⟩, _, ⟨rfl, rfl⟩, by decide, by decide, by decide⟩, ⟨bench, Ctx.idle, ⟨rfl, rfl⟩, rfl⟩⟩

/-- The largest target, the guard free and held. -/
theorem witness_GuardedOperationsStartWithTheGuard :
    (∃ (s : State) (c : Ctx) (target : TV), s.Acting 0 c ∧ c.op = .idle ∧ 0 ≤ target.sec ∧
      target.sec < 9223372036854775808 ∧ NsInRange target ∧ target = ⟨9223372036854775807, 999999999⟩ ∧ s.lock = none) ∧
    (∃ (s : State) (c : Ctx), s.Acting 0 c ∧ c.op = .idle ∧ s.lock = some 1) :=
  ⟨⟨bench, Ctx.idle, ⟨9223372036854775807, 999999999⟩, ⟨rfl, rfl⟩, rfl, by decide, by decide, ⟨by decide, by decide⟩, rfl, rfl⟩,
    ⟨{ bench with lock := some 1 }, Ctx.idle, ⟨rfl, rfl⟩, rfl, rfl⟩⟩

/-- Each of the four ways out of range, at its boundary. -/
theorem witness_SetTimeOutOfRangeIsRefused :
    ∀ t ∈ ([⟨-1, 0⟩, ⟨9223372036854775808, 0⟩, ⟨0, -1⟩, ⟨0, 1000000000⟩] : List TV),
      t.sec < 0 ∨ 9223372036854775808 ≤ t.sec ∨ t.ns < 0 ∨ 1000000000 ≤ t.ns := by decide

/-- The two sides of `OFF_NS = 10^9`. -/
theorem witness_GetTimeReturnsTheComposedTime : ∀ w ∈ ([999999999, 1000000000] : List Word), ∃ (s : State) (c : Ctx),
    s.attached = true ∧ s.callers[0]? = some c ∧ c.op = .idle ∧ s.lock = none ∧ s.ctrNsfx < 1000000000 * 1048576 ∧
    s.offNs = w ∧ s.schedule = [.issue (.caller 0) [0x80], .go 0, .go 0, .go 0] :=
  fun w _ => ⟨{ scheduled [.issue (.caller 0) [0x80], .go 0, .go 0, .go 0] with offNs := w }, Ctx.idle, rfl, rfl, rfl, rfl,
    bench_inv.counter, rfl, rfl⟩

/-- The bench with a `set_time` scheduled alone. -/
def settingAlone (target : TV) : State :=
  scheduled (issueOf (.caller 0) (.setTime target) :: (List.replicate 9 (.go 0) ++ []))

/-- A forward step, and a delta that is clamped. -/
theorem witness_SetTimeWritesTheClampedDelta :
    (∃ (s : State) (c : Ctx) (target d : TV), s.attached = true ∧ s.callers[0]? = some c ∧ c.op = .idle ∧ s.lock = none ∧
      s.ctrNsfx < 1000000000 * 1048576 ∧ 0 ≤ target.sec ∧ target.sec < 9223372036854775808 ∧ NsInRange target ∧
      d = tvSub target ⟨((s.ctrSec.toNat % 4294967296 : Nat) : Int), ((s.ctrNsfx / 1048576 : Nat) : Int)⟩ ∧ ¬ d.sec ≤ 0 ∧
      s.schedule = issueOf (.caller 0) (.setTime target) :: (List.replicate 9 (.go 0) ++ [])) ∧
    (∃ (s : State) (c : Ctx) (target d : TV), s.attached = true ∧ s.callers[0]? = some c ∧ c.op = .idle ∧ s.lock = none ∧
      s.ctrNsfx < 1000000000 * 1048576 ∧ 0 ≤ target.sec ∧ target.sec < 9223372036854775808 ∧ NsInRange target ∧
      d = tvSub target ⟨((s.ctrSec.toNat % 4294967296 : Nat) : Int), ((s.ctrNsfx / 1048576 : Nat) : Int)⟩ ∧ d.sec ≤ 0 ∧
      s.schedule = issueOf (.caller 0) (.setTime target) :: (List.replicate 9 (.go 0) ++ [])) :=
  ⟨⟨settingAlone ⟨1, 0⟩, Ctx.idle, ⟨1, 0⟩, _, rfl, rfl, rfl, rfl, by decide, by decide, by decide, ⟨by decide, by decide⟩, rfl,
      by decide, rfl⟩,
    ⟨settingAlone ⟨0, 999999999⟩, Ctx.idle, ⟨0, 999999999⟩, _, rfl, rfl, rfl, rfl, by decide, by decide, by decide,
      ⟨by decide, by decide⟩, rfl, by decide, rfl⟩⟩

theorem settingAlone_runs (target : TV) (h : (stepN 10 (settingAlone target)).isSome = true) :
    ∃ t, stepN 10 (settingAlone target) = some t := Option.isSome_iff_exists.mp h

/-- Exactly one second ahead, and one nanosecond less (vectors S6, S5). -/
theorem witness_SetTimeForwardReadsTheTarget :
    (∃ (s t : State) (c : Ctx) (target : TV), s.attached = true ∧ s.callers[0]? = some c ∧ c.op = .idle ∧ s.lock = none ∧
      s.ctrNsfx < 1000000000 * 1048576 ∧ 0 ≤ target.sec ∧ target.sec < 9223372036854775808 ∧ NsInRange target ∧
      s.schedule = issueOf (.caller 0) (.setTime target) :: (List.replicate 9 (.go 0) ++ []) ∧ stepN 10 s = some t ∧
      tvTotal ⟨((s.ctrSec.toNat % 4294967296 : Nat) : Int), ((s.ctrNsfx / 1048576 : Nat) : Int)⟩ + 1000000000 ≤
        tvTotal target) ∧
    (∃ (s t : State) (c : Ctx) (target : TV), s.attached = true ∧ s.callers[0]? = some c ∧ c.op = .idle ∧ s.lock = none ∧
      s.ctrNsfx < 1000000000 * 1048576 ∧ 0 ≤ target.sec ∧ target.sec < 9223372036854775808 ∧ NsInRange target ∧
      s.schedule = issueOf (.caller 0) (.setTime target) :: (List.replicate 9 (.go 0) ++ []) ∧ stepN 10 s = some t ∧
      tvTotal target <
        tvTotal ⟨((s.ctrSec.toNat % 4294967296 : Nat) : Int), ((s.ctrNsfx / 1048576 : Nat) : Int)⟩ + 1000000000) := by
  obtain ⟨t, ht⟩ := settingAlone_runs ⟨1, 0⟩ (by decide)
  obtain ⟨u, hu⟩ := settingAlone_runs ⟨0, 999999999⟩ (by decide)
  exact ⟨⟨settingAlone ⟨1, 0⟩, t, Ctx.idle, ⟨1, 0⟩, rfl, rfl, rfl, rfl, by decide, by decide, by decide,
      ⟨by decide, by decide⟩, rfl, ht, by decide⟩,
    ⟨settingAlone ⟨0, 999999999⟩, u, Ctx.idle, ⟨0, 999999999⟩, rfl, rfl, rfl, rfl, by decide, by decide, by decide,
      ⟨by decide, by decide⟩, rfl, hu, by decide⟩⟩

/-- The first coarse value (vector T13) and the most negative one (vector T18), with the staged word equal to the active
one and different from it. -/
theorem witness_AdjustTimeCoarseAddsToTheOffset :
    ∀ p ∈ ([(0x40000000, 0), (-0x40000000, 0), (-9223372036854775808, 0), (0x40000000, 7)] : List (DWord × Word)),
      ∃ (s : State) (c : Ctx), s.attached = true ∧ s.callers[0]? = some c ∧ c.op = .idle ∧ s.lock = none ∧
        0x3FFFFFFF < p.1.toInt.natAbs ∧ s.offSec = 0 ∧ s.stgSecLo = p.2 ∧
        s.schedule = issueOf (.caller 0) (.adjTime p.1) :: (List.replicate 6 (.go 0) ++ []) :=
  fun p h => ⟨{ scheduled (issueOf (.caller 0) (.adjTime p.1) :: (List.replicate 6 (.go 0) ++ [])) with stgSecLo := p.2 },
    Ctx.idle, rfl, rfl, rfl, rfl, by simp at h; rcases h with rfl | rfl | rfl | rfl <;> decide, rfl, rfl, rfl⟩

/-- The largest fine values (vectors T11, T12). -/
theorem witness_AdjustTimeFineNudgesTheIncrement :
    ∀ delta ∈ ([0x3FFFFFFF, -0x3FFFFFFF, 0] : List DWord),
      ∃ (s : State) (c : Ctx), s.attached = true ∧ s.callers[0]? = some c ∧ c.op = .idle ∧ s.lock = none ∧
        delta.toInt.natAbs ≤ 0x3FFFFFFF ∧ s.schedule = [issueOf (.caller 0) (.adjTime delta), .go 0, .go 0] :=
  fun delta h => ⟨scheduled [issueOf (.caller 0) (.adjTime delta), .go 0, .go 0], Ctx.idle, rfl, rfl, rfl, rfl,
    by simp at h; rcases h with rfl | rfl | rfl <;> decide, rfl⟩

/-- The direct write that remains: another caller's, while one is inside `get_time`. -/
theorem witness_GetTimeSeesNoTornOffset :
    ∃ (s t : State) (c : Ctx), s.Inv ∧ s.callers[1]? = some c ∧ c.op = .getTime ∧ c.Inside ∧ step s = .next t ∧
      (t.offNs ≠ s.offNs ∨ t.offSec ≠ s.offSec) :=
  ⟨besideGetTime, _, _, besideGetTime_inv, rfl, rfl, ⟨by decide, by decide⟩, rfl, .inl (by decide)⟩

/-- The bench's invariant does not depend on its schedule. -/
theorem scheduled_inv (l : List Entry) : (scheduled l).Inv :=
  inv_of_two rfl params8_legal bench_inv.counter bench_inv.count idle_legal idle_legal (fun h => absurd rfl h.1)
    (fun h => absurd rfl h.1) (fun k h => by cases h)

/-- A turn, the start of each host operation (the last target in range), and the acknowledgment. -/
theorem witness_CoreSequencesAreNeverRefused :
    (∃ (s : State) (c : Ctx), s.Inv ∧ s.attached = true ∧ s.callers[1]? = some c ∧ s.schedule = [.go 1]) ∧
    (∀ i ∈ ([.getTime, .setTime ⟨9223372036854775807, 999999999⟩, .adjTime 5, .adjFreq 5, .enable 2] : List Instr),
      ∃ (s : State) (c : Ctx), s.Inv ∧ s.attached = true ∧ s.callers[0]? = some c ∧ c.op = .idle ∧ i.wellFormed = true ∧
        s.schedule = [issueOf (.caller 0) i]) ∧
    (∃ s : State, s.Inv ∧ s.attached = true ∧ s.schedule = [.issue .ih [0x60, 0x00, 0x00, 0x00, 0x01]]) :=
  ⟨⟨contended [.go 1], _, contended_inv _, rfl, rfl, rfl⟩,
    fun i h => ⟨scheduled [issueOf (.caller 0) i], Ctx.idle, scheduled_inv _, rfl, rfl, rfl,
      by revert i; decide, rfl⟩,
    ⟨scheduled [.issue .ih [0x60, 0x00, 0x00, 0x00, 0x01]], scheduled_inv _, rfl, rfl⟩⟩

/-- The second caller at a step of `get_time`, holding the guard. -/
def reading (sp : Nat) : State :=
  { bench with
    lock := some 1
    schedule := [.go 1]
    callers := [Ctx.idle, { Ctx.idle with op := .getTime, sp := sp }] }

theorem reading_inv_last : (reading 3).Inv :=
  inv_of_two rfl params8_legal bench_inv.counter bench_inv.count idle_legal ⟨by decide, fun h => by cases h⟩
    (fun h => absurd rfl h.1) (fun _ => rfl) (fun k h => by cases h; exact ⟨_, rfl, by decide, by decide⟩)

/-- The first caller before the first step of the fine path, the guard free. -/
def starting : State :=
  { bench with schedule := [.go 0], callers := [{ Ctx.idle with op := .adjTime 5 }, Ctx.idle] }

theorem starting_inv : starting.Inv :=
  inv_of_two rfl params8_legal bench_inv.counter bench_inv.count ⟨by decide, fun h => by cases h⟩ idle_legal
    (fun h => absurd h.2 (by decide)) (fun h => absurd rfl h.1) (fun k h => by cases h)

/-- A caller inside its operation, one at its last step, one at step 0 with the guard free, and one that waits. -/
theorem witness_OperationsAdvanceUnlessWaiting :
    (∃ (s t : State) (c : Ctx), s.Inv ∧ s.attached = true ∧ s.callers[1]? = some c ∧ c.op ≠ .idle ∧ s.schedule = [.go 1] ∧
      step s = .next t ∧ 1 ≤ c.sp ∧ c.sp < c.lastStep) ∧
    (∃ (s t : State) (c : Ctx), s.Inv ∧ s.attached = true ∧ s.callers[1]? = some c ∧ c.op ≠ .idle ∧ s.schedule = [.go 1] ∧
      step s = .next t ∧ c.sp = c.lastStep) ∧
    (∃ (s t : State) (c : Ctx), s.Inv ∧ s.attached = true ∧ s.callers[0]? = some c ∧ c.op ≠ .idle ∧ s.schedule = [.go 0] ∧
      step s = .next t ∧ c.sp = 0 ∧ s.lock = none) ∧
    (∃ (s t : State) (c : Ctx), s.Inv ∧ s.attached = true ∧ s.callers[0]? = some c ∧ c.op ≠ .idle ∧ s.schedule = [.go 0] ∧
      step s = .next t ∧ c.sp = 0 ∧ s.lock ≠ none) :=
  ⟨⟨contended [.go 1], _, _, contended_inv _, rfl, rfl, by decide, rfl, rfl, by decide, by decide⟩,
    ⟨reading 3, _, _, reading_inv_last, rfl, rfl, by decide, rfl, rfl, rfl⟩,
    ⟨starting, _, _, starting_inv, rfl, rfl, by decide, rfl, rfl, rfl, rfl⟩,
    ⟨contended [.go 0], _, _, contended_inv _, rfl, rfl, by decide, rfl, rfl, rfl, by decide⟩⟩

theorem witness_CoreWritesOffsetNsInRange : ∃ (s : State) (c : Ctx) (d : Word), s.Inv ∧ s.callers[1]? = some c ∧
    c.nextInstr s.params = some (.wrOffsetNs d) ∧ d = 999999999 :=
  ⟨settingTime, _, _, settingTime_inv, rfl, rfl, by decide⟩

theorem witness_PulseSetsPend : (∃ s : State, s.intPend = true) ∧ (∃ s : State, s.schedule = [.issue .ps [0xC1]]) :=
  ⟨⟨{ bench with intPend := true }, rfl⟩, ⟨scheduled [.issue .ps [0xC1]], rfl⟩⟩

/-- The last count before the wrap, the wrap, and a handler without a step (vectors IH4, IH5, IH3). -/
theorem witness_HandlerEntryCounts :
    (∃ s : State, s.intPend = true ∧ s.ihState = .idle ∧ s.attached = true ∧ s.pulseCount + 1 < 128 ∧ s.pulseCount = 126) ∧
    (∃ s : State, s.intPend = true ∧ s.ihState = .idle ∧ s.attached = true ∧ 128 ≤ s.pulseCount + 1) ∧
    (∃ s : State, s.intPend = false) ∧ (∃ s : State, s.ihState = .entered) ∧ (∃ s : State, s.attached = false) ∧
    (∃ s : State, s.actor = .ih ∧ s.ihState = .idle) :=
  ⟨⟨{ bench with intPend := true, pulseCount := 126 }, rfl, rfl, rfl, by decide, rfl⟩,
    ⟨{ bench with intPend := true, pulseCount := 127 }, rfl, rfl, rfl, by decide⟩, ⟨bench, rfl⟩,
    ⟨{ bench with ihState := .entered }, rfl⟩, ⟨{ bench with attached := false }, rfl⟩, ⟨{ bench with actor := .ih }, rfl, rfl⟩⟩

theorem witness_HandlerAcknowledges : ∃ s : State, s.actor = .ih ∧ s.ihState = .entered :=
  ⟨{ bench with actor := .ih, ihState := .entered }, rfl, rfl⟩

theorem witness_ServicesEmitOneEventPer128 : ∃ (s : State) (rest : List Entry), s.pulseCount < 128 ∧ s.pulseCount = 127 ∧
    s.ihState = .idle ∧ s.attached = true ∧ s.schedule = serviceRounds 2 ++ rest :=
  ⟨{ scheduled (serviceRounds 2 ++ []) with pulseCount := 127 }, [], by decide, rfl, rfl, rfl, rfl⟩

/-- Program P3c: the count is 126. -/
theorem witness_PulsesAreLost : ∃ s : State, s.ihState = .idle ∧ s.attached = true ∧ s.pulseCount + 1 < 128 ∧
    s.pulseCount = 126 ∧ s.schedule = [.issue .ps [0xC1], .issue .ps [0xC1], .issue .ih [0xC2], .issue .ps [0xC1],
      .issue .ih [0x60, 0x00, 0x00, 0x00, 0x01]] :=
  ⟨{ scheduled [.issue .ps [0xC1], .issue .ps [0xC1], .issue .ih [0xC2], .issue .ps [0xC1],
      .issue .ih [0x60, 0x00, 0x00, 0x00, 0x01]] with pulseCount := 126 }, rfl, rfl, by decide, rfl, rfl⟩

theorem witness_EnableSetsPpsOnly : ∃ (s : State) (c : Ctx), s.Acting 0 c ∧ c.op = .idle ∧ 2 = s.params.kindPps ∧
    3 ≠ s.params.kindPps := ⟨bench, Ctx.idle, ⟨rfl, rfl⟩, rfl, rfl, by decide⟩

theorem witness_HostRegistersAtAnyTime :
    (∃ s : State, s.attached = true ∧ s.schedule = [.issue .host [0xC3]]) ∧
    (∃ s : State, s.attached = true ∧ s.schedule = [.issue .host [0xC4]]) :=
  ⟨⟨scheduled [.issue .host [0xC3]], rfl, rfl⟩, ⟨scheduled [.issue .host [0xC4]], rfl, rfl⟩⟩

/-- One instruction that changes each element: a tick, an increment write, an offset commit, the two staging writes, a pulse,
a handler's entry, an enable, a registration, a guard; and an entry of each kind that is no instruction. -/
theorem witness_OnlyNamedStepsWriteEachElement :
    (∃ t, exec .tick bench = .next t ∧ t.ctrNsfx ≠ bench.ctrNsfx) ∧
    (∃ t, exec (.wrIncrement 1) bench = .next t ∧ t.inc ≠ bench.inc) ∧
    (∃ t, exec (.wrOffsetNs 1) bench = .next t ∧ t.offNs ≠ bench.offNs) ∧
    (∃ t, exec (.wrOffsetSecLo 1) bench = .next t ∧ t.stgSecLo ≠ bench.stgSecLo) ∧
    (∃ t, exec (.wrOffsetSecHi 1) bench = .next t ∧ t.stgSecHi ≠ bench.stgSecHi) ∧
    (∃ t, exec .pulse bench = .next t ∧ t.intPend ≠ bench.intPend) ∧
    (∃ s t, exec .ihEntry s = .next t ∧ t.pulseCount ≠ s.pulseCount ∧ t.ihState ≠ s.ihState) ∧
    (∃ t, exec (.enable 2) bench = .next t ∧ t.ppsEnabled ≠ bench.ppsEnabled) ∧
    (∃ t, exec .register bench = .next t ∧ t.registered ≠ bench.registered) ∧
    (∃ t, exec .getTime bench = .next t ∧ t.lock ≠ bench.lock) ∧
    (∀ e ∈ ([.issue .tb [0xC0], .detach, .powerCycle, .go 0] : List Entry), ∃ t, step (scheduled [e]) = .next t) :=
  ⟨⟨_, rfl, by decide⟩, ⟨_, rfl, by decide⟩, ⟨_, rfl, by decide⟩, ⟨_, rfl, by decide⟩, ⟨_, rfl, by decide⟩, ⟨_, rfl, by decide⟩,
    ⟨{ bench with intPend := true }, _, rfl, by decide, by decide⟩, ⟨_, rfl, by decide⟩, ⟨_, rfl, by decide⟩,
    ⟨_, rfl, by decide⟩, fun e h => by
      simp only [List.mem_cons, List.not_mem_nil, or_false] at h
      rcases h with rfl | rfl | rfl | rfl <;> exact ⟨_, rfl⟩⟩

/-- The first caller's first step beside the second caller's context, and a power cycle. -/
theorem witness_ContextsArePrivate :
    (∃ (i : Instr) (s t : State), exec i s = .next t ∧ s.actor ≠ .caller 1 ∧ t.callers[0]? ≠ s.callers[0]?) ∧
    (∃ s t : State, step s = .next t ∧ (∀ rest, s.schedule ≠ .powerCycle :: rest) ∧ t.actor ≠ .caller 1 ∧
      t.callers[0]? ≠ s.callers[0]?) ∧
    (∃ s t : State, step s = .next t ∧ s.schedule = [.powerCycle] ∧ s.callers ≠ []) :=
  ⟨⟨.lockAcq, starting, _, rfl, by decide, by decide⟩,
    ⟨starting, _, rfl, (fun rest h => by cases h), by decide, by decide⟩,
    ⟨scheduled [.powerCycle], _, rfl, rfl, by decide⟩⟩

/-- A read of CUR_NS beside two states of the handler. -/
theorem witness_CallerStepsIgnoreTheHandler : ∃ (i : Instr) (s t s' : State), Agent.has (.caller 0) i = true ∧
    i ≠ .rdIntStatus ∧ (∀ d, i ≠ .wrIntStatus d) ∧
    t = { s with pulseCount := t.pulseCount, intPend := t.intPend, ihState := t.ihState, events := t.events } ∧
    exec i s = .next s' ∧ s ≠ t :=
  ⟨.rdCurNs, bench, { bench with pulseCount := 5, intPend := true, ihState := .entered, events := [.pps] }, _, rfl,
    by decide, (fun _ => by simp), rfl, rfl, by decide⟩

/-- A refused step, and one that is not. -/
theorem witness_RefusedMarkIsSetOnceAndKept : (∃ (s : State) (r : Refusal), step s = .refused r) ∧
    (∃ s : State, ∀ r, step s ≠ .refused r) :=
  ⟨⟨scheduled [.issue (.caller 0) [0x54, 0, 0, 0, 5]], _, rfl⟩, ⟨bench, fun _ h => by cases h⟩⟩

/-- A tick with a carry and one without, a pulse, and detach inside an operation. -/
theorem witness_AfterDetachOnlyTickAndPulse :
    (∃ (s u : State) (i : Instr), s.attached = false ∧ s.fetch = .run i u ∧ s.schedule = [.issue .tb [0xC0]] ∧
      s.ctrNsfx + s.inc.toNat < 1000000000 * 1048576) ∧
    (∃ s : State, s.attached = false ∧ s.schedule = [.issue .tb [0xC0]] ∧
      1000000000 * 1048576 ≤ s.ctrNsfx + s.inc.toNat) ∧
    (∃ s : State, s.attached = false ∧ s.schedule = [.issue .ps [0xC1]]) ∧
    (∃ s : State, s.schedule = [.detach] ∧ s.lock = some 1) :=
  ⟨⟨{ scheduled [.issue .tb [0xC0]] with attached := false }, _, .tick, rfl, rfl, rfl, by decide⟩,
    ⟨{ composed 0 999999992 0 0 0 with attached := false, schedule := [.issue .tb [0xC0]] }, rfl, rfl, by decide⟩,
    ⟨{ scheduled [.issue .ps [0xC1]] with attached := false }, rfl, rfl⟩, ⟨contended [.detach], rfl, rfl⟩⟩

theorem witness_PowerCycleRestoresResetAndAttach : ∃ s : State, s.schedule = [.powerCycle] := ⟨scheduled [.powerCycle], rfl⟩

theorem witness_StepKeepsTheInvariant : ∃ s t : State, s.Inv ∧ step s = .next t ∧ t.callers ≠ s.callers :=
  ⟨contended [.go 1], _, contended_inv _, rfl, by decide⟩

/-- A caller inside a guarded operation. -/
theorem witness_GuardedOperationsExcludeEachOther : ∃ (s : State) (c d : Ctx), s.Inv ∧ s.callers[1]? = some c ∧
    s.callers[1]? = some d ∧ c.Inside ∧ d.Inside :=
  ⟨contended [], _, _, contended_inv _, rfl, rfl, ⟨by decide, by decide⟩, ⟨by decide, by decide⟩⟩

/-- An ended run, one ended by detach inside an operation, and two cut short: in an operation and in the handler. -/
theorem witness_RunEndsOnlyWhenQuiet :
    (∃ s : State, s.schedule = [] ∧ s.attached = true ∧ (∀ c ∈ s.callers, c.op = .idle) ∧ s.ihState = .idle) ∧
    (∃ s : State, s.schedule = [] ∧ s.attached = false ∧ ∃ c ∈ s.callers, c.op ≠ .idle) ∧
    (∃ s : State, s.schedule = [] ∧ s.attached = true ∧ ∃ c ∈ s.callers, c.op ≠ .idle) ∧
    (∃ s : State, s.schedule = [] ∧ s.attached = true ∧ s.ihState = .entered) :=
  ⟨⟨bench, rfl, rfl, by decide, rfl⟩, ⟨{ contended [] with attached := false }, rfl, rfl, by decide⟩,
    ⟨contended [], rfl, rfl, by decide⟩, ⟨{ bench with ihState := .entered }, rfl, rfl, rfl⟩⟩

/-- A read of CUR_NS = 999999999, and a read inside an operation that has it next. -/
theorem witness_HostReadsCarryTheBytes :
    (∃ (s : State) (c : Ctx), s.attached = true ∧ s.callers[0]? = some c ∧ s.breaksOrder (.caller 0) Reg.curNs.readInstr = false ∧
      s.schedule = [.bus (.caller 0) (.read (s.params.base + Reg.curNs.offset.toNat) 4)] ∧ s.curDefined = true ∧
      s.curNs = 999999999) ∧
    (∃ (s : State) (c : Ctx), s.attached = true ∧ s.callers[0]? = some c ∧ s.breaksOrder (.caller 0) Reg.curNs.readInstr = false ∧
      s.schedule = [.bus (.caller 0) (.read (s.params.base + Reg.curNs.offset.toNat) 4)] ∧ c.op = .getTime) :=
  ⟨⟨{ composed 0 999999990 0 0 9 with schedule := [.bus (.caller 0) (.read (0x1000 + 0x14) 4)] }, _, rfl, rfl, by decide, rfl,
      by decide, by decide⟩,
    ⟨{ midway .getTime 1 0 ⟨0, 0⟩ with schedule := [.bus (.caller 0) (.read (0x1000 + 0x14) 4)] }, _, rfl, rfl, by decide, rfl,
      rfl⟩⟩

end Sys2Proof.Tests
end

section
/-! The host bus and the step: what a BUS key decodes to, how a host-bus transaction becomes that key, which refusals
each layer can raise, and the obligations of 00_scope.md settled from these. -/

namespace Sys2Proof

/-! ### The BUS format (rules R55, R72, R73) -/

/-- Every register stands at an aligned offset (rule R55). -/
@[simp] theorem Reg.offset_aligned (r : Reg) : r.offset.extractLsb' 0 2 = 0 := by
  cases r <;> rfl

theorem decodeBus_misaligned {a : BitVec 6} (w : Bool) (ops : List Byte) (h : a.extractLsb' 0 2 ≠ 0) :
    decodeBus w a ops = .error .misaligned := by
  rw [decodeBus, if_pos h]

theorem decodeBus_read_offset (r : Reg) (ops : List Byte) :
    decodeBus false r.offset ops = .ok (r.readInstr, ops) := by
  simp [decodeBus]

theorem decodeBus_write_offset {ops rest : List Byte} {d : Word} (r : Reg) (h : takeWord ops = some (d, rest)) :
    decodeBus true r.offset ops = .ok (r.writeInstr d, rest) := by
  simp [decodeBus, h]

/-- Four bytes are a word with nothing behind it. -/
theorem takeWord_of_length_four {bs : List Byte} (h : bs.length = 4) : ∃ d, takeWord bs = some (d, []) := by
  match bs, h with
  | [_, _, _, _], _ => exact ⟨_, rfl⟩

/-- An offset that is no multiple of 4 has a nonzero `A[1:0]` (rule R55). -/
theorem extract_ofNat_ne_zero {off : Nat} (h : off % 4 ≠ 0) : (BitVec.ofNat 6 off).extractLsb' 0 2 ≠ 0 := by
  intro h0
  have hlow : off % 64 % 4 = 0 := by simpa using congrArg BitVec.toNat h0
  omega

end Sys2Proof

namespace Sys2Proof.Machine

/-! ### The BUS key (rules R71, R72) -/

/-- The bits of a BUS key: the offset below, then the direction, then 0 (rule R71). -/
theorem busKey_getLsbD (w : Bool) (a : BitVec 6) (i : Nat) :
    (busKey w a).getLsbD i = if i < 6 then a.getLsbD i else decide (i = 6) && w := by
  refine (BitVec.getLsbD_append (x := 0#1 ++ BitVec.ofBool w) (y := a)).trans ?_
  split
  · rfl
  · rw [BitVec.getLsbD_append]
    by_cases h : i = 6
    · simp [h]
    · have : ¬ i - 6 < 1 := by omega
      simp [h, this]

/-- The key of a BUS access decodes in the BUS format, with its own direction and offset. -/
@[simp] theorem decode_busKey (w : Bool) (a : BitVec 6) (ops : List Byte) :
    decode (busKey w a :: ops) = decodeBus w a ops := by
  have hformat : (busKey w a).getLsbD 7 = false := by rw [busKey_getLsbD]; rfl
  have hdirection : (busKey w a).getLsbD 6 = w := by rw [busKey_getLsbD]; rfl
  have hoffset : (busKey w a).extractLsb' 0 6 = a := by
    apply BitVec.eq_of_getLsbD_eq
    intro i hi
    simp [busKey_getLsbD, hi]
  simp only [decode, hformat, hdirection, hoffset, if_true]

/-- A read has its BUS key and no operand bytes (rule R72). -/
theorem encode_readInstr (r : Reg) : encode r.readInstr = [busKey false r.offset] := by
  cases r <;> rfl

/-- A write has its BUS key and the four bytes of its word behind it (rules R52, R72). -/
theorem encode_writeInstr (r : Reg) (d : Word) :
    encode (r.writeInstr d) = busKey true r.offset :: wordBytes d := by
  cases r <;> rfl

/-! ### What a code selects -/

theorem instrOf_ok {code tail : List Byte} {i : Instr} (h : decode code = .ok (i, tail)) : instrOf code = .ok i := by
  simp [instrOf, h]

theorem instrOf_error {code : List Byte} {e : DecodeError} (h : decode code = .error e) :
    instrOf code = .error (refusalOf e) := by
  simp [instrOf, h]

/-- No code is refused for a width or an alignment: a code has no width, and a misaligned key is a reserved one (log 13). -/
theorem instrOf_ne_badWidth (code : List Byte) : instrOf code ≠ .error .badWidthOrAlignment := by
  intro h
  cases hd : decode code with
  | ok p => rw [instrOf_ok (tail := p.2) hd] at h; cases h
  | error e => rw [instrOf_error hd] at h; cases e <;> cases h

/-- A misaligned BUS key is refused as a reserved one (rules R55, R73, R124). -/
theorem instrOf_busKey_misaligned {off : Nat} (w : Bool) (ops : List Byte) (h : off % 4 ≠ 0) :
    instrOf (busKey w (BitVec.ofNat 6 off) :: ops) = .error .reservedOffset :=
  instrOf_error (e := .misaligned) (by simp [decodeBus_misaligned w ops (extract_ofNat_ne_zero h)])

/-- The BUS key of a register, for a write with four bytes behind it, is an access to that register (rule R72). -/
theorem instrOf_busKey_offset (r : Reg) (w : Bool) {ops : List Byte} (h : w = true → ops.length = 4) :
    ∃ i, instrOf (busKey w r.offset :: ops) = .ok i := by
  cases w with
  | false => exact ⟨r.readInstr, instrOf_ok (tail := ops) (by simp [decodeBus_read_offset])⟩
  | true =>
    obtain ⟨d, hd⟩ := takeWord_of_length_four (h rfl)
    exact ⟨r.writeInstr d, instrOf_ok (tail := []) (by simp [decodeBus_write_offset r hd])⟩

/-! ### A host-bus transaction as a BUS key (rules R14, R51, R54) -/

section HostBus

variable {off : Nat} (p : Params) (hoff : off < 64)
include hoff

/-- An offset of the block is an address of the block. -/
theorem not_outside_block : ¬ (p.base + off < p.base ∨ p.base + Config.blockSize ≤ p.base + off) := by
  simp only [Config.blockSize]
  omega

/-- A four-byte read at `BASE + A` is the BUS read key of A. -/
theorem hostInstr_read_word :
    hostInstr p (.read (p.base + off) 4) = instrOf [busKey false (BitVec.ofNat 6 off)] := by
  simp only [hostInstr, if_neg (not_outside_block p hoff), ne_eq, not_true, if_false, Nat.add_sub_cancel_left]

/-- A four-byte write at `BASE + A` is the BUS write key of A and the bytes written. -/
theorem hostInstr_write_word {bytes : List Byte} (hlen : bytes.length = 4) :
    hostInstr p (.write (p.base + off) bytes) = instrOf (busKey true (BitVec.ofNat 6 off) :: bytes) := by
  simp only [hostInstr, if_neg (not_outside_block p hoff), hlen, ne_eq, not_true, if_false, Nat.add_sub_cancel_left]

/-- A read of another width is refused at every offset of the block (rule R54, log 38). -/
theorem hostInstr_read_other_width {width : Nat} (hw : width ≠ 4) :
    hostInstr p (.read (p.base + off) width) = .error .badWidthOrAlignment := by
  simp only [hostInstr, if_neg (not_outside_block p hoff), if_pos hw]

/-- A write of another width is refused at every offset of the block (rule R54, log 38). -/
theorem hostInstr_write_other_width {bytes : List Byte} (hw : bytes.length ≠ 4) :
    hostInstr p (.write (p.base + off) bytes) = .error .badWidthOrAlignment := by
  simp only [hostInstr, if_neg (not_outside_block p hoff), if_pos hw]

end HostBus

/-- Two entries of one agent that select alike are taken alike. -/
theorem take_bus_eq_take_issue {s : State} {acc : HostAccess} {code : List Byte} (a : Agent)
    (h : hostInstr s.params acc = instrOf code) : State.take (.bus a acc) s = State.take (.issue a code) s := by
  simp only [State.take, h]

/-- Settles O6: a transaction at `BASE + A` selects what the BUS key of A selects, and that key heads the code of the
access to the register at A. -/
theorem hostBusReachesTheOffset : Obligations.HostBusReachesTheOffset := by
  unfold Obligations.HostBusReachesTheOffset
  refine ⟨fun s a off bytes hoff => ⟨?_, fun hlen => ?_⟩, fun s a r d => ⟨?_, ?_⟩⟩
  · exact take_bus_eq_take_issue a (hostInstr_read_word s.params hoff)
  · exact take_bus_eq_take_issue a (hostInstr_write_word s.params hoff hlen)
  · rw [take_bus_eq_take_issue a (hostInstr_read_word s.params r.offset.isLt), encode_readInstr]
    simp
  · rw [take_bus_eq_take_issue a (hostInstr_write_word s.params r.offset.isLt (wordBytes_length d)),
      encode_writeInstr]
    simp

/-! ### Which refusals a selected instruction can meet -/

/-- The refusals of an entry that selects no instruction (rules R51, R54, R73, R79; log 14). -/
def Refusal.selectsNothing : Refusal → Bool
  | .reservedOffset | .badWidthOrAlignment | .reservedKey | .truncatedCode | .outsideBlock => true
  | .notModelled _ | .writeToReadOnly | .writeToUnused | .badOperand | .wrongAgent | .outOfSequence
  | .guardNotHeld => false

theorem State.hostOp_refused {s : State} {f : Nat → State} {r : Refusal} (h : s.hostOp f = .refused r) :
    r = .wrongAgent ∨ r = .outOfSequence := by
  unfold State.hostOp at h
  split at h
  · cases h; exact .inl rfl
  · split at h
    · cases h
    · cases h; exact .inr rfl

theorem State.guardStep_refused {s : State} {i : Instr} {f : Nat → Host.Outcome State Fault Refusal} {r : Refusal}
    (h : s.guardStep i f = .refused r) : r = .wrongAgent ∨ r = .outOfSequence ∨ ∃ k, f k = .refused r := by
  unfold State.guardStep at h
  split at h
  · cases h; exact .inl rfl
  · split at h
    · exact .inr (.inr ⟨_, h⟩)
    · cases h; exact .inr (.inl rfl)

/-- What an instruction itself refuses, it refuses as a selected one: by its register, its operand, its agent's place. -/
theorem selectsNothing_of_exec_refused {i : Instr} {s : State} {r : Refusal} (h : exec i s = .refused r) :
    r.selectsNothing = false := by
  have hostOp {f : Nat → State} (h : s.hostOp f = .refused r) : r.selectsNothing = false := by
    obtain rfl | rfl := State.hostOp_refused h <;> rfl
  cases i with
  | getTime => exact hostOp h
  | adjTime d => exact hostOp h
  | adjFreq ppb => exact hostOp h
  | enable req => exact hostOp h
  | setTime target =>
    simp only [exec, execSetTime] at h
    split at h
    · exact hostOp h
    · cases h; rfl
  | lockAcq =>
    obtain rfl | rfl | ⟨k, hk⟩ := State.guardStep_refused h
    · rfl
    · rfl
    · cases hk
  | lockRel =>
    obtain rfl | rfl | ⟨k, hk⟩ := State.guardStep_refused h
    · rfl
    · rfl
    · split at hk
      · cases hk
      · cases hk; rfl
  | _ => cases h <;> rfl

theorem State.offer_refuse {s : State} {a : Agent} {i : Instr} {r : Refusal} (h : s.offer a i = .refuse r) :
    r = .wrongAgent ∨ r = .outOfSequence := by
  unfold State.offer at h
  split at h
  · cases h; exact .inl rfl
  · split at h
    · cases h
    · split at h
      · cases h; exact .inr rfl
      · cases h

/-! ### Steps of the host bus -/

section StepBus

variable {s : State} {a : Agent} {acc : HostAccess} {rest : List Entry} {r : Refusal}
  (hs : s.schedule = .bus a acc :: rest)
include hs

/-- A transaction that selects nothing is refused for that reason, whoever makes it (log 39). -/
theorem step_bus_error (h : hostInstr s.params acc = .error r) : step s = .refused r := by
  simp only [step, State.fetch, hs, State.take, h]

/-- An agent makes a transaction that is a step it has now (rules R9, R14). -/
theorem step_bus {i : Instr} (h : hostInstr s.params acc = .ok i) (h1 : a.has i = true) (h2 : s.hasAgent a = true)
    (h3 : s.attached = true ∨ a.outlivesCore = true) (h4 : s.breaksOrder a i = false) :
    step s = exec i { s with schedule := rest, actor := a } := by
  have hof : State.offer a i { s with schedule := rest } = .run i { s with schedule := rest, actor := a } :=
    State.offer_eq_run h1 h2 h3 h4
  simp only [step, State.fetch, hs, State.take, h, hof]

/-- A transaction that selects an instruction is not refused as one that selects nothing. -/
theorem selectsNothing_of_step_bus_refused {i : Instr} (h : hostInstr s.params acc = .ok i) (hr : step s = .refused r) :
    r.selectsNothing = false := by
  simp only [step, State.fetch, hs, State.take, h] at hr
  split at hr
  · exact selectsNothing_of_exec_refused hr
  · cases hr
  · cases hr
  · rename_i hf
    cases hr
    obtain rfl | rfl := State.offer_refuse hf <;> rfl

/-! The three facts of a four-byte transaction, which is a BUS key of its offset. -/

variable {off : Nat} {w : Bool} {ops : List Byte}
  (hkey : hostInstr s.params acc = instrOf (busKey w (BitVec.ofNat 6 off) :: ops))
include hkey

theorem step_bus_misaligned (h : off % 4 ≠ 0) : step s = .refused .reservedOffset :=
  step_bus_error hs (hkey.trans (instrOf_busKey_misaligned w ops h))

theorem step_bus_ne_badWidth : step s ≠ .refused .badWidthOrAlignment := by
  intro hr
  cases hh : hostInstr s.params acc with
  | ok i => cases selectsNothing_of_step_bus_refused hs hh hr
  | error e =>
    rw [step_bus_error hs hh] at hr
    cases hr
    exact instrOf_ne_badWidth _ (hkey.symm.trans hh)

theorem step_bus_ne_reservedOffset (hw : w = true → ops.length = 4) (hreg : ∃ r : Reg, r.offset.toNat = off) :
    step s ≠ .refused .reservedOffset := by
  obtain ⟨r, rfl⟩ := hreg
  obtain ⟨i, hi⟩ := instrOf_busKey_offset r w hw
  intro hr
  cases selectsNothing_of_step_bus_refused hs (hkey.trans (by simpa using hi)) hr

end StepBus

/-- Settles O7: another width is refused by the width test; a four-byte transaction is a BUS key, for which the three
facts above hold in either direction. -/
theorem otherWidthOrMisalignedIsRefused : Obligations.OtherWidthOrMisalignedIsRefused := by
  unfold Obligations.OtherWidthOrMisalignedIsRefused
  refine fun s a off rest hoff => ⟨fun width hs => ⟨?_, ?_, ?_, ?_⟩, fun bytes hs => ⟨?_, ?_, ?_, ?_⟩⟩
  · exact fun hw => step_bus_error hs (hostInstr_read_other_width s.params hoff hw)
  · rintro rfl
    exact step_bus_misaligned hs (hostInstr_read_word s.params hoff)
  · rintro rfl -
    exact step_bus_ne_badWidth hs (hostInstr_read_word s.params hoff)
  · rintro rfl
    exact step_bus_ne_reservedOffset hs (hostInstr_read_word s.params hoff) nofun
  · exact fun hw => step_bus_error hs (hostInstr_write_other_width s.params hoff hw)
  · exact fun hlen => step_bus_misaligned hs (hostInstr_write_word s.params hoff hlen)
  · exact fun hlen _ => step_bus_ne_badWidth hs (hostInstr_write_word s.params hoff hlen)
  · exact fun hlen => step_bus_ne_reservedOffset hs (hostInstr_write_word s.params hoff hlen) fun _ => hlen

/-! ### Host-bus reads (rules R52, R53, R100) -/

/-- Every read is the register read of its own register (rule R100). -/
theorem exec_readInstr (r : Reg) (s : State) : exec r.readInstr s = .next (s.busRead r) := by
  cases r <;> rfl

@[simp] theorem Agent.caller_has_readInstr (k : Nat) (r : Reg) : Agent.has (.caller k) r.readInstr = true := by
  cases r <;> rfl

@[simp] theorem Ctx.afterRead_rdata (p : Params) (i : Instr) (v : Word) (c : Ctx) : (c.afterRead p i v).rdata = v := rfl

/-- A four-byte transaction at a register's address reads that register. -/
theorem hostInstr_read_reg (p : Params) (r : Reg) :
    hostInstr p (.read (p.base + r.offset.toNat) 4) = .ok r.readInstr := by
  rw [hostInstr_read_word p r.offset.isLt]
  exact instrOf_ok (tail := []) (by simp [decodeBus_read_offset])

/-- A caller's host-bus read hands it the register's word and leaves the block alone (rules R57, R71, R100). -/
theorem step_bus_read {s : State} {k : Nat} {c : Ctx} {r : Reg} {rest : List Entry} (ha : s.attached = true)
    (hc : s.callers[k]? = some c) (ho : s.breaksOrder (.caller k) r.readInstr = false)
    (hs : s.schedule = .bus (.caller k) (.read (s.params.base + r.offset.toNat) 4) :: rest) :
    step s = .next { s with
      draws := s.draws + (s.regDraws r).toNat
      callers := s.callers.set k (c.afterRead s.params r.readInstr (s.regValue r))
      schedule := rest
      actor := .caller k } := by
  rw [step_bus hs (hostInstr_read_reg s.params r) (Agent.caller_has_readInstr k r) (State.hasAgent_caller hc)
      (.inl ha) ho,
    exec_readInstr,
    State.busRead_acting (s := { s with schedule := rest, actor := .caller k }) (k := k) (c := c) r ⟨rfl, hc⟩]
  simp only [State.regValue_scheduled, State.regDraws_scheduled]

/-- Where the composition is defined, CUR_NS reads its nanoseconds (rule R110). -/
theorem State.regValue_curNs {s : State} (h : s.curDefined = true) : s.regValue .curNs = BitVec.ofNat 32 s.curNs := by
  simp [State.regValue, h]

/-- Settles O60: the read leaves the context of a bus read, whose bytes are those of the register's word. -/
theorem hostReadsCarryTheBytes : Obligations.HostReadsCarryTheBytes := by
  unfold Obligations.HostReadsCarryTheBytes
  intro s k c r rest ha hc ho hs
  refine ⟨c.afterRead s.params r.readInstr (s.regValue r), s.regValue r, rfl, step_bus_read ha hc ho hs,
    Ctx.afterRead_rdata .., Ctx.afterRead_busBytes .., ?_⟩
  rintro rfl hdef hns
  rw [Ctx.afterRead_busBytes, State.regValue_curNs hdef, hns]
  decide

/-! ### The step (rules R9, R61) -/

/-- Settles O9: `step_issue`, with `TB` and `PS` as the agents that outlive the core. -/
theorem stepRunsTheDecodedInstruction : Obligations.StepRunsTheDecodedInstruction := by
  unfold Obligations.StepRunsTheDecodedInstruction
  intro s a code i tail rest hs hd hhas hagent hnow horder
  refine step_issue hs hd hhas hagent ?_ horder
  obtain hatt | rfl | rfl := hnow
  · exact .inl hatt
  · exact .inr rfl
  · exact .inr rfl

/-! ### The mark REFUSED (rules R17, R36) -/

/-- No instruction that answers a next state changes the mark. -/
theorem exec_next_refused {i : Instr} {s t : State} (h : exec i s = .next t) : t.refused = s.refused := by
  have hostOp {f : Nat → State} (hf : ∀ k, (f k).refused = s.refused) (h : s.hostOp f = .next t) :
      t.refused = s.refused := by
    obtain ⟨k, c, -, -, rfl⟩ := State.hostOp_next h
    exact hf k
  cases i with
  | getTime => exact hostOp (by simp) h
  | adjTime d => exact hostOp (by simp) h
  | adjFreq ppb => exact hostOp (by simp) h
  | enable req => exact hostOp (by simp) h
  | setTime target =>
    simp only [exec, execSetTime] at h
    split at h
    · exact hostOp (by simp) h
    · cases h
  | lockAcq =>
    obtain ⟨k, c, -, -, hk⟩ := State.guardStep_cases h
    cases hk; simp
  | lockRel =>
    obtain ⟨k, c, -, -, hk⟩ := State.guardStep_cases h
    split at hk
    · cases hk; simp
    · cases hk
  | wrIntStatus d => cases h; split <;> simp
  | ihEntry => cases h; split <;> simp
  | _ => cases h <;> simp

/-- No step that answers a next state changes the mark: an entry without an instruction keeps it too (log 18). -/
theorem step_next_refused {s t : State} (h : step s = .next t) : t.refused = s.refused := by
  obtain ⟨i, u, hf, he⟩ | hd := step_next h
  · obtain ⟨e, rest, a, -, ho⟩ := State.fetch_run hf
    obtain ⟨-, rfl, -⟩ := State.offer_run ho
    exact (exec_next_refused he).trans rfl
  · obtain ⟨e, rest, -, ⟨k, -, rfl⟩ | ⟨-, rfl⟩ | ⟨-, rfl⟩⟩ := State.fetch_done hd <;> rfl

theorem settle_of_next {s t : State} (h : step s = .next t) : settle s = t := by
  simp [settle, h]

theorem settle_of_fault {s : State} {f : Fault} (h : step s = .fault f) : settle s = s := by
  simp [settle, h]

theorem settle_of_refused {s : State} {r : Refusal} (h : step s = .refused r) : settle s = s.afterRefusal := by
  simp [settle, h]

@[simp] theorem State.afterRefusal_refused (s : State) : s.afterRefusal.refused = true := rfl

/-- Settles O52: a refused step settles to the state with the mark set, any other step keeps the mark. -/
theorem refusedMarkIsSetOnceAndKept : Obligations.RefusedMarkIsSetOnceAndKept := by
  unfold Obligations.RefusedMarkIsSetOnceAndKept
  refine fun s => ⟨fun ⟨r, hr⟩ => ?_, fun hnot => ?_⟩
  · simp [settle_of_refused hr]
  · cases hs : step s with
    | next t => rw [settle_of_next hs, step_next_refused hs]
    | fault f => rw [settle_of_fault hs]
    | refused r => exact absurd hs (hnot r)

/-! ### The launch state -/

/-- The parameters as the spec leaves them lie in their domains (rules R11, R40). -/
theorem Params.opened_legal : Params.opened.Legal := by
  have hperiod : Config.clkPeriodPred.val < 4095 := Config.clkPeriodPred.isLt
  have hcounter : Config.rstCtrNsfx.val < 1048576000000000 := Config.rstCtrNsfx.isLt
  exact ⟨by simp [Params.opened], by simp only [Params.opened]; omega, hcounter⟩

/-- At launch every caller is idle (rule R41). -/
theorem State.launch_callers_idle {p : Params} {more k : Nat} {c : Ctx}
    (h : (State.launch p more).callers[k]? = some c) : c = Ctx.idle := by
  have hmem : c ∈ Ctx.idle :: List.replicate more Ctx.idle := List.mem_of_getElem? h
  rcases List.mem_cons.mp hmem with rfl | hrest
  · rfl
  · exact List.eq_of_mem_replicate hrest

theorem Ctx.idle_legal : Ctx.idle.Legal := ⟨Nat.le_refl 0, nofun⟩

theorem Ctx.idle_not_inside : ¬ Ctx.idle.Inside := fun h => h.1 rfl

/-- A launch with parameters in their domains meets the invariant: the counter is in range by its reset value, and with
every caller idle nobody holds or needs the guard. -/
theorem State.launch_inv {p : Params} (more : Nat) (hp : p.Legal) : (State.launch p more).Inv where
  params := hp
  counter := by obtain ⟨-, -, hcounter⟩ := hp; exact hcounter
  count := by simp [State.launch]
  someCaller := by simp [State.launch]
  legal k c hc := State.launch_callers_idle hc ▸ Ctx.idle_legal
  guard k c hc hin := absurd (State.launch_callers_idle hc ▸ hin) Ctx.idle_not_inside
  holder k hk := by cases hk

/-- Settles O56: reset is the launch with the open parameters. -/
theorem resetMeetsTheInvariant : Obligations.ResetMeetsTheInvariant :=
  State.launch_inv Config.moreCallers Params.opened_legal

end Sys2Proof.Machine
end

section
/-! The state: what every instruction that answers a next state does, what that leaves of each element, and the
obligations of 10_state.md settled from it. -/

namespace Sys2Proof.Machine

/-! ### What an instruction does (rules R100 to R123, R130, R160 to R175, R190 to R197) -/

/-- What an instruction that answers a next state did to `s`: one case per kind of step, with the test it passed. -/
inductive Effect (s : State) : Instr → State → Prop
  | read (r : Reg) : Effect s r.readInstr (s.busRead r)
  | commitOffset (d : Word) : Effect s (.wrOffsetNs d) ((s.commitOffset d).wrote (.wrOffsetNs d))
  | stageSecLo (d : Word) : Effect s (.wrOffsetSecLo d) ((s.stageSecLo d).wrote (.wrOffsetSecLo d))
  | stageSecHi (d : Word) : Effect s (.wrOffsetSecHi d) ((s.stageSecHi d).wrote (.wrOffsetSecHi d))
  | writeInc (d : Word) : Effect s (.wrIncrement d) ((s.writeInc d).wrote (.wrIncrement d))
  | acknowledge (d : Word) (hih : s.actor = .ih) : Effect s (.wrIntStatus d) (s.ackHandler d)
  | clearPend (d : Word) (hih : s.actor ≠ .ih) : Effect s (.wrIntStatus d) ((s.clearPend d).wrote (.wrIntStatus d))
  | getTime {k : Nat} {c : Ctx} (hact : s.Acting k c) (hidle : c.op = .idle) :
      Effect s .getTime (s.startGuarded k .getTime)
  | setTime {k : Nat} {c : Ctx} (target : TV) (hrange : target.inTargetRange = true) (hact : s.Acting k c)
      (hidle : c.op = .idle) :
      Effect s (.setTime target) (s.startGuarded k (.setTime target))
  | adjTime {k : Nat} {c : Ctx} (deltaNs : DWord) (hact : s.Acting k c) (hidle : c.op = .idle) :
      Effect s (.adjTime deltaNs) (s.startGuarded k (.adjTime deltaNs))
  | adjFreq {k : Nat} {c : Ctx} (ppb : Word) (hact : s.Acting k c) (hidle : c.op = .idle) :
      Effect s (.adjFreq ppb) ((s.writeInc (low32 (freqIncrement s.params.nominal ppb.toInt))).returnTo k .ok)
  | enable {k : Nat} {c : Ctx} (req : Nat) (hact : s.Acting k c) (hidle : c.op = .idle) :
      Effect s (.enable req) ((s.enablePps req).returnTo k (if req = s.params.kindPps then .ok else .unsupported))
  | tick : Effect s .tick s.tickCounter
  | pulse : Effect s .pulse s.raisePulse
  | enterHandler (henabled : s.entryEnabled = true) : Effect s .ihEntry s.enterHandler
  | entryHeld (hdisabled : s.entryEnabled ≠ true) : Effect s .ihEntry s
  | register : Effect s .register { s with registered := true }
  | deregister : Effect s .deregister { s with registered := false }
  | acquire {k : Nat} {c : Ctx} (hact : s.Acting k c) (hnext : c.nextInstr s.params = some .lockAcq) :
      Effect s .lockAcq (s.acquire k)
  | release {k : Nat} {c : Ctx} (hact : s.Acting k c) (hnext : c.nextInstr s.params = some .lockRel)
      (hheld : s.lock = some k) : Effect s .lockRel (s.release k)

/-- The inversion of `exec`: everything an instruction that answers a next state can have done. -/
theorem exec_effect {i : Instr} {s t : State} (h : exec i s = .next t) : Effect s i t := by
  cases i with
  | rdOffsetNs => cases h; exact .read .offsetNs
  | rdOffsetSecLo => cases h; exact .read .offsetSecLo
  | rdOffsetSecHi => cases h; exact .read .offsetSecHi
  | rdIncrement => cases h; exact .read .increment
  | rdCurNs => cases h; exact .read .curNs
  | rdCurSecLo => cases h; exact .read .curSecLo
  | rdCurSecHi => cases h; exact .read .curSecHi
  | rdIntStatus => cases h; exact .read .intStatus
  | rdPulseOffset8k => cases h; exact .read .pulseOffset8k
  | rdCorrectionField0 => cases h; exact .read .correctionField0
  | rdCorrectionField1 => cases h; exact .read .correctionField1
  | wrOffsetNs d => cases h; exact .commitOffset d
  | wrOffsetSecLo d => cases h; exact .stageSecLo d
  | wrOffsetSecHi d => cases h; exact .stageSecHi d
  | wrIncrement d => cases h; exact .writeInc d
  | wrCurNs d | wrCurSecLo d | wrCurSecHi d | wrPulseOffset8k d | wrCorrectionField0 d | wrCorrectionField1 d => cases h
  | wrIntStatus d =>
    cases h
    split
    · exact .acknowledge d ‹_›
    · exact .clearPend d ‹_›
  | getTime => obtain ⟨k, c, hact, hidle, rfl⟩ := State.hostOp_next h; exact .getTime hact hidle
  | setTime target =>
    simp only [exec, execSetTime] at h
    split at h
    · obtain ⟨k, c, hact, hidle, rfl⟩ := State.hostOp_next h; exact .setTime target ‹_› hact hidle
    · cases h
  | adjTime d => obtain ⟨k, c, hact, hidle, rfl⟩ := State.hostOp_next h; exact .adjTime d hact hidle
  | adjFreq ppb => obtain ⟨k, c, hact, hidle, rfl⟩ := State.hostOp_next h; exact .adjFreq ppb hact hidle
  | enable req => obtain ⟨k, c, hact, hidle, rfl⟩ := State.hostOp_next h; exact .enable req hact hidle
  | tick => cases h; exact .tick
  | pulse => cases h; exact .pulse
  | ihEntry =>
    cases h
    split
    · exact .enterHandler ‹_›
    · exact .entryHeld ‹_›
  | register => cases h; exact .register
  | deregister => cases h; exact .deregister
  | lockAcq =>
    obtain ⟨k, c, hact, hnext, hk⟩ := State.guardStep_cases h
    cases hk
    exact .acquire hact hnext
  | lockRel =>
    obtain ⟨k, c, hact, hnext, hk⟩ := State.guardStep_cases h
    split at hk
    · cases hk; exact .release hact hnext ‹_›
    · cases hk

/-! ### The elements (rules R23 to R28, R30 to R32, R34 to R36, R38) -/

/-- Each effect changes only the elements its instruction is named for, and leaves the schedule and the actor alone. -/
theorem Effect.changedOnlyBy {i : Instr} {s t : State} (h : Effect s i t) :
    ChangedOnlyBy i s t ∧ t.schedule = s.schedule ∧ t.actor = s.actor := by
  cases h with
  | enable req hact hidle =>
    refine ⟨?_, by simp, by simp⟩
    constructor
    case ppsEnabled => simpa using fun hpps _ => .inr hpps
    all_goals simp
  | _ => exact ⟨by constructor <;> simp, by simp, by simp⟩

/-- The schedule and the acting agent are not among the elements. -/
theorem ChangedOnlyBy.of_scheduled {i : Instr} {s t : State} {l : List Entry} {a : Agent}
    (h : ChangedOnlyBy i { s with schedule := l, actor := a } t) : ChangedOnlyBy i s t := { h with }

/-! ### The contexts (rule R37) -/

/-- The acting agent is a caller of the machine, or a change of its context changes nothing. -/
theorem State.acting_or_onActor_eq (f : Ctx → Ctx) (s : State) : (∃ k c, s.Acting k c) ∨ s.onActor f = s := by
  cases hactor : s.actor with
  | caller k =>
    cases hc : s.callers[k]? with
    | some c => exact .inl ⟨k, c, hactor, hc⟩
    | none =>
      right
      simp only [State.onActor, hactor, List.modify_eq_self (List.getElem?_eq_none_iff.mp hc)]
      rw [← hactor]
  | tb | ps | ih | host => right; exact State.onActor_other f (by simp [hactor])

theorem State.acquire_callers {s : State} {k : Nat} {c : Ctx} (hc : s.callers[k]? = some c) :
    ∃ d, (s.acquire k).callers = s.callers.set k d := by
  cases hl : s.lock with
  | none => exact ⟨_, by rw [State.acquire_free hc hl]⟩
  | some j => exact ⟨c, by rw [State.acquire_held hl, set_same hc]⟩

theorem State.startGuarded_callers {s : State} {k : Nat} {c : Ctx} (op : Op) (hc : s.callers[k]? = some c) :
    ∃ d, (s.startGuarded k op).callers = s.callers.set k d := by
  rw [State.startGuarded_acting op hc]
  split <;> exact ⟨_, rfl⟩

/-- An effect changes at most the acting caller's context. -/
theorem Effect.callers_eq_or_set {i : Instr} {s t : State} (h : Effect s i t) :
    t.callers = s.callers ∨ ∃ k c d, s.Acting k c ∧ t.callers = s.callers.set k d := by
  have onActor (f : Ctx → Ctx) {u : State} (hu : u.callers = s.callers) (ha : u.actor = s.actor) :
      (u.onActor f).callers = s.callers ∨ ∃ k c d, s.Acting k c ∧ (u.onActor f).callers = s.callers.set k d := by
    obtain ⟨k, c, hact⟩ | hsame := u.acting_or_onActor_eq f
    · rw [State.onActor_acting f hact, hu]
      exact .inr ⟨k, c, f c, ⟨ha ▸ hact.1, hu ▸ hact.2⟩, rfl⟩
    · exact .inl (by rw [hsame, hu])
  cases h with
  | read r => exact onActor _ rfl rfl
  | commitOffset d | stageSecLo d | stageSecHi d | writeInc d | clearPend d hih => exact onActor _ rfl rfl
  | getTime hact hidle | setTime target hrange hact hidle | adjTime deltaNs hact hidle =>
    obtain ⟨d, hd⟩ := State.startGuarded_callers _ hact.2
    exact .inr ⟨_, _, d, hact, hd⟩
  | adjFreq ppb hact hidle | enable req hact hidle => exact .inr ⟨_, _, _, hact, modify_eq_set _ hact.2⟩
  | acquire hact hnext =>
    obtain ⟨d, hd⟩ := State.acquire_callers hact.2
    exact .inr ⟨_, _, d, hact, hd⟩
  | release hact hnext hheld => exact .inr ⟨_, _, _, hact, modify_eq_set _ hact.2⟩
  | acknowledge d hih | tick | enterHandler => exact .inl (by simp)
  | pulse | entryHeld | register | deregister => exact .inl rfl

/-- No effect touches the context of a caller that is not acting, nor the number of callers. -/
theorem Effect.keepsOtherContexts {i : Instr} {s t : State} (h : Effect s i t) :
    t.callers.length = s.callers.length ∧ ∀ j, s.actor ≠ .caller j → t.callers[j]? = s.callers[j]? := by
  obtain hsame | ⟨k, c, d, hact, hset⟩ := h.callers_eq_or_set
  · simp [hsame]
  · refine ⟨by simp [hset], fun j hj => ?_⟩
    have hkj : k ≠ j := fun e => hj (e ▸ hact.1)
    rw [hset, List.getElem?_set_ne hkj]

/-! ### Entries without an instruction (rules R42, R43) -/

theorem State.fetch_powerCycle {s : State} {rest : List Entry} (hs : s.schedule = .powerCycle :: rest) :
    s.fetch = .done (State.powerCycle { s with schedule := rest }) := by
  simp only [State.fetch, hs, State.take]

theorem step_powerCycle {s : State} {rest : List Entry} (hs : s.schedule = .powerCycle :: rest) :
    step s = .next (State.powerCycle { s with schedule := rest }) := by
  simp only [step, State.fetch_powerCycle hs]

theorem step_detach {s : State} {rest : List Entry} (hs : s.schedule = .detach :: rest) :
    step s = .next { s with registered := false, attached := false, schedule := rest } := by
  simp only [step, State.fetch, hs, State.take, State.detach]

/-- A power cycle leaves every context idle (rule R41). -/
theorem State.powerCycle_callers_idle {s : State} {c : Ctx} (h : c ∈ s.powerCycle.callers) : c = Ctx.idle := by
  obtain ⟨k, hk⟩ := List.mem_iff_getElem?.mp h
  exact State.launch_callers_idle (p := s.params) hk

/-- A power cycle keeps `N_CALLERS` (rule R43). -/
theorem State.powerCycle_callers_length {s : State} (h : s.callers ≠ []) :
    s.powerCycle.callers.length = s.callers.length := by
  have hpos : 0 < s.callers.length := List.length_pos_iff.mpr h
  simp only [State.powerCycle, State.launch, List.length_cons, List.length_replicate]
  omega

/-- How a step answers a next state: the effect of an instruction, on the state behind its entry with its agent acting,
or one of the three entries without an instruction. -/
theorem step_effect {s t : State} (h : step s = .next t) :
    (∃ i a rest, s.fetch = .run i { s with schedule := rest, actor := a } ∧
      Effect { s with schedule := rest, actor := a } i t) ∨
    (∃ k rest, s.schedule = .go k :: rest ∧ t = { s with schedule := rest }) ∨
    (∃ rest, s.schedule = .detach :: rest ∧ t = State.detach { s with schedule := rest }) ∨
    (∃ rest, s.schedule = .powerCycle :: rest ∧ t = State.powerCycle { s with schedule := rest }) := by
  obtain ⟨i, u, hf, he⟩ | hd := step_next h
  · obtain ⟨e, rest, a, -, ho⟩ := State.fetch_run hf
    obtain ⟨-, rfl, -⟩ := State.offer_run ho
    exact .inl ⟨i, a, rest, hf, exec_effect he⟩
  · obtain ⟨e, rest, hs, ⟨k, rfl, rfl⟩ | ⟨rfl, rfl⟩ | ⟨rfl, rfl⟩⟩ := State.fetch_done hd
    · exact .inr (.inl ⟨k, rest, hs, rfl⟩)
    · exact .inr (.inr (.inl ⟨rest, hs, rfl⟩))
    · exact .inr (.inr (.inr ⟨rest, hs, rfl⟩))

/-! ### Contexts that a sequence reaches (rules R37, R138, R172 to R177) -/

theorem tvNorm_nsInRange (t : Int) : NsInRange (tvNorm t) := by
  simp only [NsInRange, tvNorm, Config.nsecPerSec]
  omega

/-- The offset `SET_TIME` writes has its nanoseconds in range, clamped or not (rule R173). -/
theorem setTimeDelta_nsInRange (target raw : TV) : NsInRange (setTimeDelta target raw) := by
  unfold setTimeDelta
  split
  · exact ⟨by decide, by decide⟩
  · exact tvNorm_nsInRange _

/-- The last step depends on the operation alone. -/
theorem Ctx.lastStep_congr {c d : Ctx} (h : d.op = c.op) : d.lastStep = c.lastStep := by
  simp only [Ctx.lastStep, h]

/-- `LOCK_ACQ` and `LOCK_REL` are different steps of every sequence (rule R171). -/
theorem Ctx.lastStep_pos {c : Ctx} (h : c.op ≠ .idle) : 0 < c.lastStep := by
  unfold Ctx.lastStep
  split
  · contradiction
  · decide
  · decide
  · split <;> decide

/-- Before its last step an operation goes on to the next one. -/
theorem Ctx.advance_before_last {c : Ctx} (v : Word) (ho : c.op ≠ .idle) (hs : c.sp < c.lastStep) :
    (c.advance v).op = c.op ∧ (c.advance v).sp = c.sp + 1 := by
  unfold Ctx.advance Ctx.lastStep at *
  repeat' split
  all_goals simp_all

/-- An offset still to be written behind a step was there before it or comes from the step's computation, which
normalizes it (rule R138). -/
theorem Ctx.advance_offset_inRange {c : Ctx} (v : Word) (h : c.holdsOffset = true → NsInRange c.tv)
    (ho : (c.advance v).holdsOffset = true) : NsInRange (c.advance v).tv := by
  unfold Ctx.advance at *
  repeat' split
  all_goals simp_all [Ctx.holdsOffset, Ctx.ret, tvAdd, tvNorm_nsInRange, setTimeDelta_nsInRange]
  all_goals exact h (by omega)

/-- A context that has returned is legal. -/
theorem Ctx.ret_legal (r : Result) (c : Ctx) : (c.ret r).Legal := ⟨Nat.le_refl 0, nofun⟩

theorem Ctx.ret_not_inside (r : Result) (c : Ctx) : ¬ (c.ret r).Inside := fun h => h.1 rfl

/-- The next step of a sequence is legal. -/
theorem Ctx.Legal.advance {c : Ctx} (v : Word) (h : c.Legal) : (c.advance v).Legal := by
  refine ⟨?_, Ctx.advance_offset_inRange v h.2⟩
  by_cases ho : c.op = .idle
  · simpa [Ctx.advance, ho] using h.1
  obtain hlast | hbefore := Nat.eq_or_lt_of_le h.1
  · rw [Ctx.advance_last v ho hlast]
    exact (Ctx.ret_legal _ c).1
  · obtain ⟨hop, hsp⟩ := Ctx.advance_before_last v ho hbefore
    rw [hsp, Ctx.lastStep_congr hop]
    exact hbefore

theorem Ctx.Legal.after {c : Ctx} (p : Params) (i : Instr) (v : Word) (h : c.Legal) : (c.after p i v).Legal := by
  unfold Ctx.after
  split
  · exact h.advance v
  · exact h

/-- A listed step is one of the two guard steps exactly at the ends of its sequence (rule R171). -/
theorem Ctx.not_guardStep_iff_between {c : Ctx} {p : Params} {i : Instr} (hn : c.nextInstr p = some i) :
    (i ≠ .lockAcq ∧ i ≠ .lockRel) ↔ (c.sp ≠ 0 ∧ c.sp ≠ c.lastStep) := by
  have ho : c.op ≠ .idle := fun hi => by simp [Ctx.nextInstr, hi] at hn
  have hacq : i = .lockAcq ↔ c.sp = 0 := by simpa [hn, ho] using Ctx.nextInstr_lockAcq (c := c) (p := p)
  have hrel : i = .lockRel ↔ c.sp = c.lastStep := by simpa [hn, ho] using Ctx.nextInstr_lockRel (c := c) (p := p)
  rw [Ne, Ne, hacq, hrel]

/-- A step other than the two guard steps neither enters a guarded operation nor leaves it (rules R66, R171). -/
theorem Ctx.Legal.after_inside_iff {c : Ctx} {p : Params} {i : Instr} (v : Word) (h : c.Legal) (hacq : i ≠ .lockAcq)
    (hrel : i ≠ .lockRel) : (c.after p i v).Inside ↔ c.Inside := by
  unfold Ctx.after
  split
  · rename_i hn
    have ho : c.op ≠ .idle := fun hi => by simp [Ctx.nextInstr, hi] at hn
    obtain ⟨hfirst, hlast⟩ := (Ctx.not_guardStep_iff_between hn).mp ⟨hacq, hrel⟩
    obtain ⟨hop, hsp⟩ := Ctx.advance_before_last v ho (Nat.lt_of_le_of_ne h.1 hlast)
    simp only [Ctx.Inside, hop, hsp, Nat.one_le_iff_ne_zero, Nat.succ_ne_zero, hfirst, ne_eq, not_false_eq_true]
  · rfl

/-- The first step of a guarded operation enters it. -/
theorem Ctx.after_lockAcq_inside {c : Ctx} {p : Params} (v : Word) (hn : c.nextInstr p = some .lockAcq) :
    (c.after p .lockAcq v).Inside := by
  obtain ⟨ho, hs⟩ := Ctx.nextInstr_lockAcq.mp hn
  rw [Ctx.after_next v hn, Ctx.advance_first v ho hs]
  exact ⟨ho, Nat.le_refl 1⟩

/-- The last step of a guarded operation leaves it. -/
theorem Ctx.after_lockRel_not_inside {c : Ctx} {p : Params} (v : Word) (hn : c.nextInstr p = some .lockRel) :
    ¬ (c.after p .lockRel v).Inside := by
  obtain ⟨ho, hs⟩ := Ctx.nextInstr_lockRel.mp hn
  rw [Ctx.after_next v hn, Ctx.advance_last v ho hs]
  exact Ctx.ret_not_inside _ c

/-! ### The invariant (rules R24, R30, R32, R66, R170, R171) -/

/-- The guard is held by exactly the caller that is inside a guarded operation. -/
theorem State.Inv.lock_iff {s : State} {k : Nat} {c : Ctx} (h : s.Inv) (hc : s.callers[k]? = some c) :
    s.lock = some k ↔ c.Inside := by
  refine ⟨fun hk => ?_, h.guard k c hc⟩
  obtain ⟨d, hd, hin⟩ := h.holder k hk
  cases hc.symm.trans hd
  exact hin

/-- What leaves callers, guard and parameters alone keeps the invariant, if counter and count stay in range. -/
theorem State.Inv.of_same_callers {s t : State} (h : s.Inv) (hcallers : t.callers = s.callers) (hlock : t.lock = s.lock)
    (hparams : t.params = s.params) (hcounter : t.ctrNsfx < Config.nsfxPerSec)
    (hcount : t.pulseCount < Config.pulsesPerSecond) : t.Inv where
  params := hparams ▸ h.params
  counter := hcounter
  count := hcount
  someCaller := hcallers ▸ h.someCaller
  legal := hcallers ▸ h.legal
  guard := by rw [hcallers, hlock]; exact h.guard
  holder := by rw [hcallers, hlock]; exact h.holder

/-- What changes one caller's context keeps the invariant, if the new context is legal, that caller holds the guard
exactly if it is inside, and the guard is as it was for every other caller. -/
theorem State.Inv.of_set {s t : State} {k : Nat} {c c' : Ctx} (h : s.Inv) (hc : s.callers[k]? = some c)
    (hcallers : t.callers = s.callers.set k c') (hlegal : c'.Legal) (hown : t.lock = some k ↔ c'.Inside)
    (hothers : ∀ j, j ≠ k → (t.lock = some j ↔ s.lock = some j)) (hparams : t.params = s.params)
    (hcounter : t.ctrNsfx = s.ctrNsfx) (hcount : t.pulseCount = s.pulseCount) : t.Inv := by
  have hnew : t.callers[k]? = some c' := hcallers ▸ getElem?_set_acting c' hc
  have hold {j : Nat} (hj : j ≠ k) : t.callers[j]? = s.callers[j]? := by
    rw [hcallers, List.getElem?_set_ne hj.symm]
  refine ⟨hparams ▸ h.params, hcounter ▸ h.counter, hcount ▸ h.count, fun hnil => ?_, fun j d hd => ?_,
    fun j d hd hin => ?_, fun j hj => ?_⟩
  · simp [hnil] at hnew
  all_goals by_cases hjk : j = k
  · subst hjk
    cases hnew.symm.trans hd
    exact hlegal
  · exact h.legal j d (hold hjk ▸ hd)
  · subst hjk
    cases hnew.symm.trans hd
    exact hown.mpr hin
  · exact (hothers j hjk).mpr (h.guard j d (hold hjk ▸ hd) hin)
  · subst hjk
    exact ⟨c', hnew, hown.mp hj⟩
  · rw [hold hjk]
    exact h.holder j ((hothers j hjk).mp hj)

/-- A change of the acting context keeps the invariant, if it keeps contexts legal and on their side of the guard. -/
theorem State.Inv.onActor {s : State} {f : Ctx → Ctx} (h : s.Inv)
    (hf : ∀ c : Ctx, c.Legal → (f c).Legal ∧ ((f c).Inside ↔ c.Inside)) : (s.onActor f).Inv := by
  obtain ⟨k, c, hact⟩ | hsame := s.acting_or_onActor_eq f
  · have hc := hact.2
    obtain ⟨hlegal, hinside⟩ := hf c (h.legal k c hc)
    exact h.of_set hc (by rw [State.onActor_acting f hact]) hlegal
      (by rw [State.onActor_lock, h.lock_iff hc, hinside]) (fun _ _ => by simp) (by simp) (by simp) (by simp)
  · rwa [hsame]

/-! One rule per operation of the state. -/

theorem State.Inv.wrote {s : State} {i : Instr} (h : s.Inv) (hacq : i ≠ .lockAcq) (hrel : i ≠ .lockRel) :
    (s.wrote i).Inv :=
  h.onActor fun _ hc => ⟨hc.after s.params i 0, hc.after_inside_iff 0 hacq hrel⟩

theorem State.Inv.busRead {s : State} (r : Reg) (h : s.Inv) : (s.busRead r).Inv := by
  have hdraw : (s.takeDraw (s.regDraws r)).Inv := h.of_same_callers rfl rfl rfl h.counter h.count
  refine hdraw.onActor fun c hc => ?_
  have hacq : r.readInstr ≠ .lockAcq := by cases r <;> exact nofun
  have hrel : r.readInstr ≠ .lockRel := by cases r <;> exact nofun
  exact ⟨hc.after s.params r.readInstr _, hc.after_inside_iff _ hacq hrel⟩

theorem State.Inv.tickCounter {s : State} (h : s.Inv) : s.tickCounter.Inv := by
  refine h.of_same_callers (by simp) (by simp) (by simp) ?_ (by simpa using h.count)
  have hinc : s.inc.toNat < 4294967296 := s.inc.isLt
  have hcounter : s.ctrNsfx < 1048576000000000 := h.counter
  unfold State.tickCounter
  split <;> simp_all only [Config.nsfxPerSec] <;> omega

theorem State.Inv.enterHandler {s : State} (h : s.Inv) : s.enterHandler.Inv := by
  refine h.of_same_callers (by simp) (by simp) (by simp) (by simpa using h.counter) ?_
  unfold State.enterHandler
  split <;> simp_all only [Config.pulsesPerSecond] <;> omega

/-- An idle caller's operation returns: it was outside the guard and stays there. -/
theorem State.Inv.returnTo {s : State} {k : Nat} {c : Ctx} (r : Result) (h : s.Inv) (hc : s.callers[k]? = some c)
    (hidle : c.op = .idle) : (s.returnTo k r).Inv := by
  have hout : ¬ c.Inside := fun hin => hin.1 hidle
  exact h.of_set hc (by rw [State.returnTo_caller r hc]) (Ctx.ret_legal r c)
    (by simp [h.lock_iff hc, hout, Ctx.ret_not_inside]) (fun _ _ => by simp) (by simp) (by simp) (by simp)

/-- A caller at its first step takes the free guard and is inside, or waits. -/
theorem State.Inv.acquire {s : State} {k : Nat} {c : Ctx} (h : s.Inv) (hc : s.callers[k]? = some c)
    (hnext : c.nextInstr s.params = some .lockAcq) : (s.acquire k).Inv := by
  cases hl : s.lock with
  | some j => rwa [State.acquire_held hl]
  | none =>
    rw [State.acquire_free hc hl]
    refine h.of_set hc rfl ((h.legal k c hc).after _ _ _) ?_ (fun j hj => ?_) rfl rfl rfl
    · exact iff_of_true rfl (Ctx.after_lockAcq_inside 0 hnext)
    · simp [hl, hj.symm]

/-- The holder at its last step frees the guard and is outside. -/
theorem State.Inv.release {s : State} {k : Nat} {c : Ctx} (h : s.Inv) (hc : s.callers[k]? = some c)
    (hnext : c.nextInstr s.params = some .lockRel) (hheld : s.lock = some k) : (s.release k).Inv := by
  rw [State.release_holder hc]
  refine h.of_set hc rfl ((h.legal k c hc).after _ _ _) ?_ (fun j hj => ?_) rfl rfl rfl
  · exact iff_of_false nofun (Ctx.after_lockRel_not_inside 0 hnext)
  · simp [hheld, hj.symm]

/-- The start of an operation puts an idle caller before its first step, which it then takes as any other. -/
theorem State.Inv.startGuarded {s : State} {k : Nat} {c : Ctx} {op : Op} (h : s.Inv) (hc : s.callers[k]? = some c)
    (hidle : c.op = .idle) (hop : op ≠ .idle) : (s.startGuarded k op).Inv := by
  have hstart : ({ c with op := op, sp := 0 } : Ctx).nextInstr s.params = some .lockAcq :=
    Ctx.nextInstr_lockAcq.mpr ⟨hop, rfl⟩
  have hlegal : ({ c with op := op, sp := 0 } : Ctx).Legal := ⟨Nat.zero_le _, by cases op <;> simp [Ctx.holdsOffset]⟩
  have hfree : s.lock ≠ some k := fun hk => ((h.lock_iff hc).mp hk).1 hidle
  have hout : ¬ ({ c with op := op, sp := 0 } : Ctx).Inside := nofun
  refine State.Inv.acquire (c := { c with op := op, sp := 0 }) (h.of_set hc (modify_eq_set _ hc) hlegal
    (iff_of_false hfree hout) (fun _ _ => Iff.rfl) rfl rfl rfl) ?_ hstart
  simp only [modify_eq_set _ hc, getElem?_set_acting _ hc]

theorem State.Inv.powerCycle {s : State} (h : s.Inv) : s.powerCycle.Inv := by
  have hlaunch := State.launch_inv (s.callers.length - 1) h.params
  exact { hlaunch with }

/-- Every instruction keeps the invariant. -/
theorem Effect.keepsInv {i : Instr} {s t : State} (h : Effect s i t) (hinv : s.Inv) : t.Inv := by
  have same {u : State} (h1 : u.callers = s.callers) (h2 : u.lock = s.lock) (h3 : u.params = s.params)
      (h4 : u.ctrNsfx = s.ctrNsfx) (h5 : u.pulseCount = s.pulseCount) : u.Inv :=
    hinv.of_same_callers h1 h2 h3 (h4 ▸ hinv.counter) (h5 ▸ hinv.count)
  cases h with
  | read r => exact hinv.busRead r
  | commitOffset d => exact State.Inv.wrote (same rfl rfl rfl rfl rfl) nofun nofun
  | stageSecLo d => exact State.Inv.wrote (same rfl rfl rfl rfl rfl) nofun nofun
  | stageSecHi d => exact State.Inv.wrote (same rfl rfl rfl rfl rfl) nofun nofun
  | writeInc d => exact State.Inv.wrote (same rfl rfl rfl rfl rfl) nofun nofun
  | clearPend d hih => exact State.Inv.wrote (same rfl rfl rfl rfl rfl) nofun nofun
  | acknowledge d hih => exact same (by simp) (by simp) (by simp) (by simp) (by simp)
  | getTime hact hidle => exact hinv.startGuarded hact.2 hidle nofun
  | setTime target hrange hact hidle => exact hinv.startGuarded hact.2 hidle nofun
  | adjTime deltaNs hact hidle => exact hinv.startGuarded hact.2 hidle nofun
  | adjFreq ppb hact hidle => exact State.Inv.returnTo _ (same rfl rfl rfl rfl rfl) hact.2 hidle
  | enable req hact hidle => exact State.Inv.returnTo _ (same rfl rfl rfl rfl rfl) hact.2 hidle
  | tick => exact hinv.tickCounter
  | enterHandler => exact hinv.enterHandler
  | entryHeld => exact hinv
  | pulse | register | deregister => exact same rfl rfl rfl rfl rfl
  | acquire hact hnext => exact hinv.acquire hact.2 hnext
  | release hact hnext hheld => exact hinv.release hact.2 hnext hheld

/-- Settles O57: the schedule and the actor are no part of the invariant, so a step is an effect, a turn without a step,
a detach or a power cycle, and each of these keeps it. -/
theorem stepKeepsTheInvariant : Obligations.StepKeepsTheInvariant := by
  unfold Obligations.StepKeepsTheInvariant
  intro s t hinv hstep
  obtain ⟨i, a, rest, -, he⟩ | ⟨k, rest, -, rfl⟩ | ⟨rest, -, rfl⟩ | ⟨rest, -, rfl⟩ := step_effect hstep
  · exact he.keepsInv { hinv with }
  · exact { hinv with }
  · exact { hinv with }
  · exact State.Inv.powerCycle { hinv with }

/-! ### Frames of a step -/

/-- Settles O49: by `Effect.changedOnlyBy`; an entry without an instruction is one of the three named. -/
theorem onlyNamedStepsWriteEachElement : Obligations.OnlyNamedStepsWriteEachElement := by
  unfold Obligations.OnlyNamedStepsWriteEachElement
  refine ⟨fun i s t h => (exec_effect h).changedOnlyBy, fun s t hstep => ?_⟩
  obtain ⟨i, a, rest, hf, he⟩ | ⟨k, rest, hs, rfl⟩ | ⟨rest, hs, rfl⟩ | ⟨rest, hs, rfl⟩ := step_effect hstep
  · exact .inl ⟨i, _, hf, he.changedOnlyBy.1.of_scheduled⟩
  · exact .inr (.inr (.inr ⟨k, rest, hs, rfl⟩))
  · exact .inr (.inl ⟨rest, hs, rfl⟩)
  · exact .inr (.inr (.inl ⟨rest, hs, rfl, rfl⟩))

/-- Settles O50: by `Effect.keepsOtherContexts`; a turn without a step and a detach keep every context, a power cycle is
named. -/
theorem contextsArePrivate : Obligations.ContextsArePrivate := by
  unfold Obligations.ContextsArePrivate
  refine ⟨fun i s t h => (exec_effect h).keepsOtherContexts, fun s t hstep => ?_⟩
  obtain ⟨i, a, rest, hf, he⟩ | ⟨k, rest, hs, rfl⟩ | ⟨rest, hs, rfl⟩ | ⟨rest, hs, rfl⟩ := step_effect hstep
  · have hnot (l : List Entry) : s.schedule ≠ .powerCycle :: l := fun hl => by
      rw [State.fetch_powerCycle hl] at hf
      cases hf
    obtain ⟨hlen, hothers⟩ := he.keepsOtherContexts
    obtain ⟨-, -, hactor⟩ := he.changedOnlyBy
    exact .inr ⟨hnot, hlen, fun j hj => hothers j (hactor ▸ hj)⟩
  · exact .inr ⟨by simp [hs], rfl, fun _ _ => rfl⟩
  · exact .inr ⟨by simp [hs], rfl, fun _ _ => rfl⟩
  · exact .inl ⟨rest, hs, fun hne => State.powerCycle_callers_length (s := { s with schedule := rest }) hne,
      fun c hc => State.powerCycle_callers_idle hc⟩

/-! ### An operation's turn (rules R37, R62, R170) -/

/-- Settles O11: `step_go`, in the statement's words. -/
theorem goRunsTheNextStep : Obligations.GoRunsTheNextStep := by
  unfold Obligations.GoRunsTheNextStep
  exact fun s k c i rest hs ha hc hn => step_go hs ha hc hn

/-- A step of the sequence that is no guard step advances the acting caller's context; a read also hands it its word. -/
theorem Effect.advances_actor {i : Instr} {s t : State} {k : Nat} {c : Ctx} (h : Effect s i t) (hact : s.Acting k c)
    (hn : c.nextInstr s.params = some i) (hacq : i ≠ .lockAcq) (hrel : i ≠ .lockRel) :
    ∃ v w, t.callers[k]? = some { c.advance v with rdata := w } := by
  have hcaller : Agent.has (.caller k) i = true := Ctx.nextInstr_callers hn k
  have wrote {u : State} (hu : u.Acting k c) (hp : u.params = s.params) :
      ∃ v w, (u.wrote i).callers[k]? = some { c.advance v with rdata := w } := by
    rw [State.wrote_acting i hu, hp, Ctx.after_next 0 hn]
    exact ⟨0, _, getElem?_set_acting _ hu.2⟩
  have notIdle {j : Nat} {d : Ctx} (hd : s.Acting j d) (hidle : d.op = .idle) : False := by
    cases hact.1.symm.trans hd.1
    cases hact.2.symm.trans hd.2
    simp [Ctx.nextInstr, hidle] at hn
  cases h with
  | read r =>
    rw [State.busRead_acting r hact, Ctx.afterRead, Ctx.after_next _ hn]
    exact ⟨_, _, getElem?_set_acting _ hact.2⟩
  | commitOffset d | stageSecLo d | stageSecHi d | writeInc d | clearPend d hih => exact wrote hact rfl
  | acknowledge d hih => cases hact.1.symm.trans hih
  | getTime hd hidle | setTime target hrange hd hidle | adjTime deltaNs hd hidle | adjFreq ppb hd hidle
  | enable req hd hidle => exact (notIdle hd hidle).elim
  | tick | pulse | enterHandler | entryHeld | register | deregister => cases hcaller
  | acquire => exact absurd rfl hacq
  | release => exact absurd rfl hrel

/-- Up to its last step an operation has a next step. -/
theorem Ctx.exists_nextInstr {c : Ctx} (p : Params) (ho : c.op ≠ .idle) (hs : c.sp ≤ c.lastStep) :
    ∃ i, c.nextInstr p = some i := by
  rw [← Option.isSome_iff_exists]
  unfold Ctx.nextInstr Ctx.lastStep at *
  repeat' split
  all_goals simp_all
  all_goals omega

/-- Between its two guard steps an operation goes on to the next step. -/
theorem step_go_between {s t : State} {k : Nat} {c : Ctx} {rest : List Entry} (hs : s.schedule = .go k :: rest)
    (ha : s.attached = true) (hc : s.callers[k]? = some c) (ho : c.op ≠ .idle) (hfirst : c.sp ≠ 0)
    (hlast : c.sp < c.lastStep) (hstep : step s = .next t) :
    ∃ c', t.callers[k]? = some c' ∧ c'.op = c.op ∧ c'.sp = c.sp + 1 := by
  obtain ⟨i, hn⟩ := Ctx.exists_nextInstr s.params ho hlast.le
  obtain ⟨hacq, hrel⟩ := (Ctx.not_guardStep_iff_between hn).mpr ⟨hfirst, hlast.ne⟩
  obtain ⟨v, w, hnew⟩ :=
    (exec_effect ((step_go hs ha hc hn).symm.trans hstep)).advances_actor ⟨rfl, hc⟩ hn hacq hrel
  exact ⟨_, hnew, Ctx.advance_before_last v ho hlast⟩

/-- Settles O40: at its first step an operation takes the free guard or waits, at its last one it releases the guard,
which by the invariant it holds, and returns; between them it goes on. -/
theorem operationsAdvanceUnlessWaiting : Obligations.OperationsAdvanceUnlessWaiting := by
  unfold Obligations.OperationsAdvanceUnlessWaiting
  intro s t k c rest hinv ha hc ho hs hstep
  have hlegal := (hinv.legal k c hc).1
  have hpos := Ctx.lastStep_pos ho
  by_cases hfirst : c.sp = 0
  · have hn : c.nextInstr s.params = some .lockAcq := Ctx.nextInstr_lockAcq.mpr ⟨ho, hfirst⟩
    cases hl : s.lock with
    | none =>
      cases hstep.symm.trans (step_go_lockAcq hs ha hc hn hl)
      have hbefore : c.sp < c.lastStep := hfirst ▸ hpos
      exact ⟨_, getElem?_set_acting _ hc, fun _ => .inl ⟨hbefore, Ctx.advance_before_last 0 ho hbefore⟩,
        fun hwait => absurd rfl hwait.2⟩
    | some j =>
      cases hstep.symm.trans (step_go_waits hs ha hc hn hl)
      exact ⟨c, hc, fun hmove => by simp [hfirst] at hmove, fun _ => ⟨rfl, hl⟩⟩
  have hinside : 1 ≤ c.sp := Nat.one_le_iff_ne_zero.mpr hfirst
  have hnowait {P : Prop} : c.sp = 0 ∧ s.lock ≠ none → P := fun hwait => absurd hwait.1 hfirst
  obtain hlast | hbefore := Nat.eq_or_lt_of_le hlegal
  · have hn : c.nextInstr s.params = some .lockRel := Ctx.nextInstr_lockRel.mpr ⟨ho, hlast⟩
    cases hstep.symm.trans (step_go_lockRel hs ha hc hn (hinv.guard k c hc ⟨ho, hinside⟩))
    refine ⟨_, getElem?_set_acting _ hc, fun _ => .inr ⟨hlast, ?_⟩, hnowait⟩
    rw [Ctx.advance_last 0 ho hlast]
    exact ⟨rfl, rfl, rfl⟩
  · obtain ⟨c', hc', hnext⟩ := step_go_between hs ha hc ho hfirst hbefore hstep
    exact ⟨c', hc', fun _ => .inl ⟨hbefore, hnext⟩, hnowait⟩

/-! ### After detach (rule R42) -/

/-- The agents that outlive the core have one step each (rules R9, R130, R190). -/
theorem Agent.tick_or_pulse_of_outlivesCore {a : Agent} {i : Instr} (hout : a.outlivesCore = true)
    (hhas : a.has i = true) : i = .tick ∨ i = .pulse := by
  cases a with
  | tb | ps => cases i <;> simp_all [Agent.has, Agent.isCaller]
  | caller k | ih | host => cases hout

theorem State.tickCounter_below {s : State} (h : s.ctrNsfx + s.inc.toNat < Config.nsfxPerSec) :
    s.tickCounter = { s with ctrNsfx := s.ctrNsfx + s.inc.toNat } :=
  if_neg (Nat.not_le.mpr h)

theorem State.tickCounter_carry {s : State} (h : Config.nsfxPerSec ≤ s.ctrNsfx + s.inc.toNat) :
    s.tickCounter =
      { s with ctrNsfx := s.ctrNsfx + s.inc.toNat - Config.nsfxPerSec, ctrSec := s.ctrSec + 1 } :=
  if_pos h

/-- Settles O53: what the fetch runs with the core detached, some agent that outlives it was offered. -/
theorem afterDetachOnlyTickAndPulse : Obligations.AfterDetachOnlyTickAndPulse := by
  unfold Obligations.AfterDetachOnlyTickAndPulse
  refine ⟨fun s u i hdet hf => ?_, fun s rest _ => ⟨fun hs => ⟨fun hbelow => ?_, fun hcarry => ?_⟩, step_pulse⟩,
    fun s rest => step_detach⟩
  · obtain ⟨e, rest, a, -, ho⟩ := State.fetch_run hf
    obtain ⟨-, -, hhas, -, hatt | hout, -⟩ := State.offer_run ho
    · cases hdet.symm.trans hatt
    · exact Agent.tick_or_pulse_of_outlivesCore hout hhas
  · rw [step_tick hs, State.tickCounter_below (s := { s with schedule := rest, actor := .tb }) hbelow]
  · rw [step_tick hs, State.tickCounter_carry (s := { s with schedule := rest, actor := .tb }) hcarry]

/-! ### Power cycle and reset (rules R40, R41, R43) -/

/-- Settles O54: a power cycle is a launch with the same parameters; the staged words join to the offset. -/
theorem powerCycleRestoresResetAndAttach : Obligations.PowerCycleRestoresResetAndAttach := by
  unfold Obligations.PowerCycleRestoresResetAndAttach
  intro s rest hs
  refine ⟨_, step_powerCycle hs, rfl, rfl, rfl, rfl, rfl, append_extract s.params.rstOffSec, rfl, rfl, rfl, rfl, rfl,
    rfl, rfl, rfl, fun c hc => ?_, rfl, rfl, rfl⟩
  rw [State.powerCycle_callers_idle hc, Ctx.idle]

/-- Settles O55: reset is the launch with the open parameters. -/
theorem resetHoldsTheAttachValues : Obligations.ResetHoldsTheAttachValues := by
  unfold Obligations.ResetHoldsTheAttachValues
  refine ⟨rfl, rfl, rfl, rfl, rfl, rfl, fun c hc => ?_, rfl, append_extract Config.rstOffSec, rfl, rfl, rfl, rfl, rfl,
    rfl⟩
  obtain ⟨k, hk⟩ := List.mem_iff_getElem?.mp hc
  rw [State.launch_callers_idle hk, Ctx.idle]

/-! ### The end of a run (rules R42, R253) -/

/-- No instruction stops the machine: the block has no fault (rule R210). -/
theorem exec_ne_fault (i : Instr) (s : State) (f : Fault) : exec i s ≠ .fault f := by
  have hostOp (g : Nat → State) : s.hostOp g ≠ .fault f := by
    unfold State.hostOp
    split
    · nofun
    · split <;> nofun
  have guardStep (j : Instr) {g : Nat → Host.Outcome State Fault Refusal} (hg : ∀ k, g k ≠ .fault f) :
      s.guardStep j g ≠ .fault f := by
    unfold State.guardStep
    split
    · nofun
    · split
      · exact hg _
      · nofun
  cases i with
  | getTime | adjTime | adjFreq | enable => exact hostOp _
  | setTime target =>
    simp only [exec, execSetTime]
    split
    · exact hostOp _
    · nofun
  | lockAcq => exact guardStep _ fun _ => nofun
  | lockRel => exact guardStep _ fun k => by split <;> nofun
  | _ => nofun

theorem State.offer_stop {s : State} {a : Agent} {i : Instr} {f : Fault} (h : s.offer a i = .stop f) :
    f = .detached := by
  unfold State.offer at h
  split at h
  · cases h
  · split at h
    · cases h; rfl
    · split at h <;> cases h

/-- An entry stops the machine only as a step of an agent that detach has left without one (rule R42). -/
theorem State.take_stop {s : State} {e : Entry} {f : Fault} (h : State.take e s = .stop f) : f = .detached := by
  cases e with
  | issue a code | bus a acc =>
    simp only [State.take] at h
    split at h
    · exact State.offer_stop h
    · cases h
  | go k =>
    simp only [State.take] at h
    split at h
    · cases h
    · split at h
      · cases h
      · exact State.offer_stop h
  | detach | powerCycle => cases h

/-- With no entry left the machine stops: ended where all is quiet or the core is gone, cut short elsewhere (log 15). -/
theorem step_no_entry {s : State} (hs : s.schedule = []) :
    step s = .fault (if s.quiet || !s.attached then .runEnded else .scheduleCut) := by
  simp only [step, State.fetch, hs]

/-- The two ends of a run come with an empty schedule alone, where the test of the fetch picks one. -/
theorem step_end_iff {s : State} {f : Fault} (hf : f ≠ .detached) :
    step s = .fault f ↔
      s.schedule = [] ∧ (if s.quiet || !s.attached then Fault.runEnded else .scheduleCut) = f := by
  cases hs : s.schedule with
  | nil => simp [step_no_entry hs]
  | cons e rest =>
    refine iff_of_false (fun h => ?_) nofun
    simp only [step, State.fetch, hs] at h
    split at h
    · exact exec_ne_fault _ _ _ h
    · cases h
    · rename_i htake
      cases h
      exact hf (State.take_stop htake)
    · cases h

/-- Not quiet: some operation is in progress or the handler is entered. -/
theorem State.not_quiet_iff {s : State} :
    s.quiet = false ↔ (∃ c ∈ s.callers, c.op ≠ .idle) ∨ s.ihState = .entered := by
  have hentered : s.ihState = .entered ↔ s.ihState ≠ .idle := by cases s.ihState <;> simp
  rw [← Bool.not_eq_true, State.quiet_iff, not_and_or, hentered]
  push Not
  rfl

/-- Settles O59: either end means that the schedule is empty, and then `quiet` and `attached` decide which one it is. -/
theorem runEndsOnlyWhenQuiet : Obligations.RunEndsOnlyWhenQuiet := by
  unfold Obligations.RunEndsOnlyWhenQuiet
  intro s
  rw [step_end_iff (f := .runEnded) nofun, step_end_iff (f := .scheduleCut) nofun, ← State.quiet_iff,
    ← State.not_quiet_iff]
  cases s.attached <;> simp

end Sys2Proof.Machine
end

section
/-! The memory: the bytes of a word on the bus, reads without a side effect, repeated writes, the placed code, mutual
exclusion; the obligations of 20_memory.md settled from these. -/

namespace Sys2Proof.Machine

/-! ### Placing a code (rules R61, R77, R170; log 2) -/

section Placed

variable {code : List Byte} {i : Instr} (h : instrOf code = .ok i)
include h

/-- A code is issued by an agent that has its step (rule R9). -/
theorem agentOfCode_has : (agentOfCode code).has i = true := by
  cases i <;> simp [agentOfCode, h, Agent.has, Agent.isCaller]

theorem placeOfCode_other (hacq : i ≠ .lockAcq) (hrel : i ≠ .lockRel) : placeOfCode code = (.idle, 0) := by
  cases i <;> simp_all [placeOfCode]

theorem lockOfCode_other (l : Option Nat) (hrel : i ≠ .lockRel) : lockOfCode code l = l := by
  cases i <;> simp_all [lockOfCode]

/-- A caller that stands where the code places it may take its step: it is idle, or its sequence lists the step. -/
theorem idle_or_next_of_placed {c : Ctx} (p : Params) (hop : c.op = (placeOfCode code).1)
    (hsp : c.sp = (placeOfCode code).2) : c.op = .idle ∨ c.nextInstr p = some i := by
  by_cases hacq : i = .lockAcq
  · simp only [placeOfCode, h, hacq] at hop hsp
    exact .inr (by simp [Ctx.nextInstr, hop, hsp, hacq])
  by_cases hrel : i = .lockRel
  · simp only [placeOfCode, h, hrel] at hop hsp
    exact .inr (by simp [Ctx.nextInstr, hop, hsp, hrel])
  · exact .inl (by rw [hop, placeOfCode_other h hacq hrel])

end Placed

/-- The only caller a code is issued by is the first one. -/
theorem eq_zero_of_agentOfCode_caller {code : List Byte} {k : Nat} (h : agentOfCode code = .caller k) : k = 0 := by
  unfold agentOfCode at h
  split at h <;> cases h <;> rfl

/-- The first caller stands at the place, whether or not the machine had a caller before (rule R11). -/
theorem exists_placeFirst_head (place : Op × Nat) (l : List Ctx) :
    ∃ c, (placeFirst place l)[0]? = some c ∧ c.op = place.1 ∧ c.sp = place.2 := by
  cases l <;> exact ⟨_, rfl, rfl, rfl⟩

/-- Behind the placed entry its agent is one of the machine's and keeps its program order (rules R9, R37, R62). -/
theorem placed_agent_ready {code : List Byte} {i : Instr} {u : State} {l : List Ctx} (h : instrOf code = .ok i)
    (hu : u.callers = placeFirst (placeOfCode code) l) :
    u.hasAgent (agentOfCode code) = true ∧ u.breaksOrder (agentOfCode code) i = false := by
  cases hagent : agentOfCode code with
  | tb | ps | ih | host => exact ⟨rfl, rfl⟩
  | caller k =>
    cases eq_zero_of_agentOfCode_caller hagent
    obtain ⟨c, hc, hop, hsp⟩ := exists_placeFirst_head (placeOfCode code) l
    rw [← hu] at hc
    obtain hidle | hnext := idle_or_next_of_placed h u.params hop hsp
    · exact ⟨State.hasAgent_caller hc, State.breaksOrder_idle i hc hidle⟩
    · exact ⟨State.hasAgent_caller hc, State.breaksOrder_next hc hnext⟩

/-- A placed code is what the next step runs, from every state. -/
theorem step_placeCode {code tail : List Byte} {i : Instr} (s : State) (h : decode code = .ok (i, tail)) :
    step (s.placeCode code) = exec i { s with
      attached := true
      callers := placeFirst (placeOfCode code) s.callers
      lock := lockOfCode code s.lock
      actor := agentOfCode code } := by
  have hi := instrOf_ok h
  obtain ⟨hagent, horder⟩ := placed_agent_ready (u := s.placeCode code) hi rfl
  exact step_issue rfl h (agentOfCode_has hi) hagent (.inl rfl) horder

theorem decode_of_decodeTableWord {nbits w : Nat} {i : Instr} (h : decodeTableWord nbits w = some i) :
    ∃ tail, decode (tableBytes nbits w) = .ok (i, tail) := by
  unfold decodeTableWord at h
  split at h
  · rename_i j tail hd
    cases h
    exact ⟨tail, hd⟩
  · cases h

/-- Settles O10: `step_placeCode` on the word's bytes; place and guard are those the code asks for. -/
theorem placedWordRunsNext : Obligations.PlacedWordRunsNext := by
  unfold Obligations.PlacedWordRunsNext
  intro s nbits w i hw
  obtain ⟨tail, hd⟩ := decode_of_decodeTableWord hw
  have hi := instrOf_ok hd
  refine ⟨agentOfCode (tableBytes nbits w), placeOfCode (tableBytes nbits w), lockOfCode (tableBytes nbits w) s.lock,
    agentOfCode_has hi, step_placeCode s hd, ?_, ?_, fun hacq hrel => ?_⟩
  · rintro rfl
    simp only [placeOfCode, lockOfCode, hi, and_self]
  · rintro rfl
    simp only [placeOfCode, lockOfCode, hi, and_self]
  · exact ⟨placeOfCode_other hi hacq hrel, lockOfCode_other hi s.lock hrel⟩

/-! ### Reads (rules R57, R100) -/

/-- A change of the acting caller's context changes the contexts alone. -/
theorem State.onActor_frame (f : Ctx → Ctx) (s : State) : s.onActor f = { s with callers := (s.onActor f).callers } := by
  unfold State.onActor
  split <;> rfl

/-- A read changes the contexts and the count of draws alone (rule R57). -/
theorem State.busRead_frame (r : Reg) (s : State) :
    s.busRead r = { s with callers := (s.busRead r).callers, draws := (s.busRead r).draws } := by
  simp only [State.busRead]
  rw [State.onActor_frame]
  rfl

/-- A direct read leaves an idle caller with the value read and nothing else (rule R37). -/
theorem Ctx.afterRead_idle {c : Ctx} (p : Params) (i : Instr) (v : Word) (h : c.op = .idle) :
    c.afterRead p i v = { c with rdata := v } := by
  rw [Ctx.afterRead, Ctx.after_idle p i v h]

/-- Settles O12: a read is `busRead`, which changes the contexts and the draws, and of the contexts the reader's. -/
theorem readsLeaveTheBlockAlone : Obligations.ReadsLeaveTheBlockAlone := by
  unfold Obligations.ReadsLeaveTheBlockAlone
  intro r s
  obtain ⟨hlen, hothers⟩ := (Effect.read (s := s) r).keepsOtherContexts
  refine ⟨s.busRead r, exec_readInstr r s, s.busRead_frame r, hlen, hothers, fun k c hact => ?_⟩
  refine ⟨c.afterRead s.params r.readInstr (s.regValue r), ?_, fun hidle => Ctx.afterRead_idle _ _ _ hidle⟩
  rw [State.busRead_acting r hact]
  exact getElem?_set_acting _ hact.2

/-! ### Writes by an idle caller (rules R37, R58, R101) -/

/-- A direct write leaves an idle caller's context alone (rule R37). -/
theorem State.wrote_idle {s : State} {k : Nat} {c : Ctx} (i : Instr) (h : s.Acting k c) (hidle : c.op = .idle) :
    s.wrote i = s := by
  rw [State.wrote_acting i h, Ctx.after_idle _ _ _ hidle, set_same h.2]

section IdleWrite

variable {s : State} {k : Nat} {c : Ctx} (d : Word) (h : s.Acting k c) (hidle : c.op = .idle)
include h hidle

theorem exec_wrOffsetNs_idle : exec (.wrOffsetNs d) s = .next (s.commitOffset d) :=
  congrArg _ (State.wrote_idle (s := s.commitOffset d) _ h hidle)

theorem exec_wrOffsetSecLo_idle : exec (.wrOffsetSecLo d) s = .next (s.stageSecLo d) :=
  congrArg _ (State.wrote_idle (s := s.stageSecLo d) _ h hidle)

theorem exec_wrOffsetSecHi_idle : exec (.wrOffsetSecHi d) s = .next (s.stageSecHi d) :=
  congrArg _ (State.wrote_idle (s := s.stageSecHi d) _ h hidle)

theorem exec_wrIncrement_idle : exec (.wrIncrement d) s = .next (s.writeInc d) :=
  congrArg _ (State.wrote_idle (s := s.writeInc d) _ h hidle)

theorem exec_wrIntStatus_idle : exec (.wrIntStatus d) s = .next (s.clearPend d) := by
  have hcaller : s.actor ≠ .ih := by simp [h.1]
  simp only [exec, execWrIntStatus, if_neg hcaller]
  exact congrArg _ (State.wrote_idle (s := s.clearPend d) _ h hidle)

end IdleWrite

/-- What a write has cleared, the same write clears no further (rule R117). -/
theorem State.clearPend_clearPend (d : Word) (s : State) : (s.clearPend d).clearPend d = s.clearPend d := by
  simp [State.clearPend]

/-- Settles O24: an idle caller's write is its update of the block alone, and each of the five updates is idempotent. -/
theorem repeatedWritesAreIdempotent : Obligations.RepeatedWritesAreIdempotent := by
  unfold Obligations.RepeatedWritesAreIdempotent
  rintro s k c d i hact hidle (rfl | rfl | rfl | rfl | rfl)
  · exact ⟨_, exec_wrOffsetNs_idle d hact hidle, exec_wrOffsetNs_idle (s := s.commitOffset d) d hact hidle⟩
  · exact ⟨_, exec_wrOffsetSecLo_idle d hact hidle, exec_wrOffsetSecLo_idle (s := s.stageSecLo d) d hact hidle⟩
  · exact ⟨_, exec_wrOffsetSecHi_idle d hact hidle, exec_wrOffsetSecHi_idle (s := s.stageSecHi d) d hact hidle⟩
  · exact ⟨_, exec_wrIncrement_idle d hact hidle, exec_wrIncrement_idle (s := s.writeInc d) d hact hidle⟩
  · refine ⟨_, exec_wrIntStatus_idle 1 hact hidle, ?_⟩
    rw [exec_wrIntStatus_idle (s := s.clearPend 1) 1 hact hidle, State.clearPend_clearPend]

/-! ### Host-bus writes (rules R52, R53, R101) -/

@[simp] theorem Agent.caller_has_writeInstr (k : Nat) (r : Reg) (d : Word) :
    Agent.has (.caller k) (r.writeInstr d) = true := by
  cases r <;> rfl

/-- The four bytes of a word at a register's address write that word to that register. -/
theorem hostInstr_write_reg (p : Params) (r : Reg) (d : Word) :
    hostInstr p (.write (p.base + r.offset.toNat) (wordBytes d)) = .ok (r.writeInstr d) := by
  rw [hostInstr_write_word p r.offset.isLt (wordBytes_length d)]
  exact instrOf_ok (tail := []) (by simp [decodeBus_write_offset r (takeWord_wordBytes_nil d)])

/-- An idle caller's host-bus write of a register runs the write of that register. -/
theorem step_bus_write_idle {s : State} {k : Nat} {c : Ctx} {r : Reg} {d : Word} {rest : List Entry}
    (ha : s.attached = true) (hc : s.callers[k]? = some c) (hidle : c.op = .idle)
    (hs : s.schedule = .bus (.caller k) (.write (s.params.base + r.offset.toNat) (wordBytes d)) :: rest) :
    step s = exec (r.writeInstr d) { s with schedule := rest, actor := .caller k } :=
  step_bus hs (hostInstr_write_reg s.params r d) (Agent.caller_has_writeInstr k r d) (State.hasAgent_caller hc) (.inl ha)
    (State.breaksOrder_idle _ hc hidle)

/-- Settles O8: 0x00, 0x80, 0x00, 0x00 are the bytes of 0x00800000, and INCREMENT stands at 0x10. -/
theorem bytesAreBigEndian : Obligations.BytesAreBigEndian := by
  unfold Obligations.BytesAreBigEndian
  refine ⟨fun s k c rest ha hc hidle hs => ?_, fun w => ⟨takeWord_wordBytes_nil w, rfl⟩, by decide⟩
  have hbytes : wordBytes 0x00800000 = [0x00, 0x80, 0x00, 0x00] := by decide
  rw [← hbytes] at hs
  exact (step_bus_write_idle (r := .increment) ha hc hidle hs).trans (exec_wrIncrement_idle _ ⟨rfl, hc⟩ hidle)

/-! ### Mutual exclusion (rules R66, R171) -/

/-- Settles O58: each of the two holds the guard, which has one holder. -/
theorem guardedOperationsExcludeEachOther : Obligations.GuardedOperationsExcludeEachOther := by
  unfold Obligations.GuardedOperationsExcludeEachOther
  intro s j k c d hinv hc hd hcin hdin
  have hj : s.lock = some j := hinv.guard j c hc hcin
  have hk : s.lock = some k := hinv.guard k d hd hdin
  exact Option.some.inj (hj.symm.trans hk)

end Sys2Proof.Machine
end

section
/-! The encoding: the keys of the three formats, the decoder's inverse in each of them, and what becomes of a code that
selects nothing; the obligations of 30_encoding.md settled from these. -/

namespace Sys2Proof.Machine

/-! ### The keys (rules R70 to R79) -/

/-- The STEP key (`b = true`, rule R77) or HOSTOP key (`b = false`, rule R74) with the code `n` in `key[2:0]`. -/
def opKey (b : Bool) (n : BitVec 3) : Byte := 1#1 ++ BitVec.ofBool b ++ 0#3 ++ n

theorem opKey_fields : ∀ (b : Bool) (n : BitVec 3), (opKey b n).getLsbD 7 = true ∧
    (opKey b n).extractLsb' 3 3 = 0 ∧ (opKey b n).getLsbD 6 = b ∧ (opKey b n).extractLsb' 0 3 = n := by
  decide

@[simp] theorem decode_hostOpKey (op : BitVec 3) (ops : List Byte) :
    decode (opKey false op :: ops) = decodeHostOp op ops := by
  obtain ⟨h7, hmid, h6, hop⟩ := opKey_fields false op
  simp only [decode, h7, Bool.true_eq_false, if_false, hmid, ne_eq, not_true, h6, if_true, hop]

@[simp] theorem decode_stepKey (ev : BitVec 3) (ops : List Byte) :
    decode (opKey true ev :: ops) = decodeStep ev ops := by
  obtain ⟨h7, hmid, h6, hev⟩ := opKey_fields true ev
  simp only [decode, h7, Bool.true_eq_false, if_false, hmid, ne_eq, not_true, h6, hev]

/-- A key with `key[7] = 0` is the BUS key of its direction and offset (rule R71). -/
theorem eq_busKey {key : Byte} (h : key.getLsbD 7 = false) :
    key = busKey (key.getLsbD 6) (key.extractLsb' 0 6) := by
  apply BitVec.eq_of_getLsbD_eq
  intro i hi
  rw [busKey_getLsbD]
  obtain hlow | rfl | rfl : i < 6 ∨ i = 6 ∨ i = 7 := by omega
  · simp [hlow]
  · simp
  · simpa using h

/-- A key with `key[7] = 1` and `key[5:3] = 000` is a HOSTOP or STEP key (rules R74, R77). -/
theorem eq_opKey : ∀ {key : Byte}, key.getLsbD 7 = true → key.extractLsb' 3 3 = 0 →
    key = opKey (key.getLsbD 6) (key.extractLsb' 0 3) := by
  decide

/-- The formats of a key (rule R70), with the keys of none (rule R79). -/
inductive KeyFormat : Byte → Prop
  | bus (w : Bool) (a : BitVec 6) : KeyFormat (busKey w a)
  | hostOp (op : BitVec 3) : KeyFormat (opKey false op)
  | step (ev : BitVec 3) : KeyFormat (opKey true ev)
  | noFormat {key : Byte} (h7 : key.getLsbD 7 = true) (hmid : key.extractLsb' 3 3 ≠ 0) : KeyFormat key

theorem keyFormat (key : Byte) : KeyFormat key := by
  cases h7 : key.getLsbD 7 with
  | false => rw [eq_busKey h7]; exact .bus _ _
  | true =>
    by_cases hmid : key.extractLsb' 3 3 = 0
    · rw [eq_opKey h7 hmid]
      cases key.getLsbD 6 with
      | false => exact .hostOp _
      | true => exact .step _
    · exact .noFormat h7 hmid

theorem decode_noFormat {key : Byte} (h7 : key.getLsbD 7 = true) (hmid : key.extractLsb' 3 3 ≠ 0) (ops : List Byte) :
    decode (key :: ops) = .error .reservedKey := by
  simp only [decode, h7, Bool.true_eq_false, if_false, if_pos hmid]

/-! ### The codes of the host operations with operands (rules R74, R75; log 1) -/

theorem encode_setTime (t : TV) : encode (.setTime t) =
    opKey false 1#3 :: (dwordBytes (BitVec.ofInt 64 t.sec) ++ wordBytes (BitVec.ofInt 32 t.ns)) := rfl

theorem encode_adjTime (d : DWord) : encode (.adjTime d) = opKey false 2#3 :: dwordBytes d := rfl

theorem encode_adjFreq (ppb : Word) : encode (.adjFreq ppb) = opKey false 3#3 :: wordBytes ppb := rfl

theorem encode_enable (req : Nat) : encode (.enable req) = opKey false 4#3 :: wordBytes (BitVec.ofNat 32 req) := rfl

/-! ### Decoding a code (rules R71 to R78) -/

section Decode

variable {ops ops1 rest : List Byte}

theorem decodeHostOp_setTime {sec : DWord} {ns : Word} (hsec : takeDWord ops = some (sec, ops1))
    (hns : takeWord ops1 = some (ns, rest)) :
    decodeHostOp 1#3 ops = .ok (.setTime ⟨sec.toInt, (ns.toNat : Int)⟩, rest) := by
  simp [decodeHostOp, hsec, hns]

theorem decodeHostOp_adjTime {d : DWord} (h : takeDWord ops = some (d, rest)) :
    decodeHostOp 2#3 ops = .ok (.adjTime d, rest) := by
  simp [decodeHostOp, h]

theorem decodeHostOp_adjFreq {ppb : Word} (h : takeWord ops = some (ppb, rest)) :
    decodeHostOp 3#3 ops = .ok (.adjFreq ppb, rest) := by
  simp [decodeHostOp, h]

theorem decodeHostOp_enable {kind : Word} (h : takeWord ops = some (kind, rest)) :
    decodeHostOp 4#3 ops = .ok (.enable kind.toNat, rest) := by
  simp [decodeHostOp, h]

end Decode

theorem decode_encode_writeInstr (r : Reg) (d : Word) (rest : List Byte) :
    decode (encode (r.writeInstr d) ++ rest) = .ok (r.writeInstr d, rest) := by
  rw [encode_writeInstr, List.cons_append, decode_busKey, decodeBus_write_offset r (takeWord_wordBytes d rest)]

/-- The operand domain of `SET_TIME` (rules R74, R75). -/
theorem inTargetRange_iff {t : TV} :
    t.inTargetRange = true ↔ (0 ≤ t.sec ∧ t.sec < 9223372036854775808) ∧ 0 ≤ t.ns ∧ t.ns < 1000000000 := by
  simp [TV.inTargetRange, and_assoc]

/-- The operand bytes of `SET_TIME` hold every target in range: its seconds fit a signed 64-bit word. -/
theorem toInt_ofInt_targetSec {sec : Int} (h0 : 0 ≤ sec) (h : sec < 9223372036854775808) :
    (BitVec.ofInt 64 sec).toInt = sec :=
  BitVec.toInt_ofInt_eq_self (by decide) (by omega) (by omega)

/-- The operand bytes of `SET_TIME` hold every target in range: its nanoseconds fit an unsigned word. -/
theorem toNat_ofInt_targetNs {ns : Int} (h0 : 0 ≤ ns) (h : ns < 1000000000) :
    ((BitVec.ofInt 32 ns).toNat : Int) = ns := by
  rw [BitVec.toNat_ofInt]
  omega

theorem decode_encode_setTime {t : TV} (h : t.inTargetRange = true) (rest : List Byte) :
    decode (encode (.setTime t) ++ rest) = .ok (.setTime t, rest) := by
  obtain ⟨⟨hsec0, hsec⟩, hns0, hns⟩ := inTargetRange_iff.mp h
  rw [encode_setTime, List.cons_append, List.append_assoc, decode_hostOpKey,
    decodeHostOp_setTime (takeDWord_dwordBytes _ _) (takeWord_wordBytes _ rest),
    toInt_ofInt_targetSec hsec0 hsec, toNat_ofInt_targetNs hns0 hns]

theorem decode_encode_adjTime (d : DWord) (rest : List Byte) :
    decode (encode (.adjTime d) ++ rest) = .ok (.adjTime d, rest) := by
  rw [encode_adjTime, List.cons_append, decode_hostOpKey, decodeHostOp_adjTime (takeDWord_dwordBytes d rest)]

theorem decode_encode_adjFreq (ppb : Word) (rest : List Byte) :
    decode (encode (.adjFreq ppb) ++ rest) = .ok (.adjFreq ppb, rest) := by
  rw [encode_adjFreq, List.cons_append, decode_hostOpKey, decodeHostOp_adjFreq (takeWord_wordBytes ppb rest)]

theorem decode_encode_enable {req : Nat} (h : kindEncodable req = true) (rest : List Byte) :
    decode (encode (.enable req) ++ rest) = .ok (.enable req, rest) := by
  have hreq : req < 4294967296 := of_decide_eq_true h
  rw [encode_enable, List.cons_append, decode_hostOpKey, decodeHostOp_enable (takeWord_wordBytes _ rest),
    BitVec.toNat_ofNat, Nat.mod_eq_of_lt hreq]

/-- Settles O1: by the rows of the table; a row without operand bytes is its key, and the bytes of an operand in its
domain read back as that operand. -/
theorem decodeOfEncodeIsTheInstruction : Obligations.DecodeOfEncodeIsTheInstruction := by
  unfold Obligations.DecodeOfEncodeIsTheInstruction
  intro i rest hwf
  cases i with
  | rdOffsetNs | rdOffsetSecLo | rdOffsetSecHi | rdIncrement | rdCurNs | rdCurSecLo | rdCurSecHi | rdIntStatus
  | rdPulseOffset8k | rdCorrectionField0 | rdCorrectionField1 => rfl
  | wrOffsetNs d => exact decode_encode_writeInstr .offsetNs d rest
  | wrOffsetSecLo d => exact decode_encode_writeInstr .offsetSecLo d rest
  | wrOffsetSecHi d => exact decode_encode_writeInstr .offsetSecHi d rest
  | wrIncrement d => exact decode_encode_writeInstr .increment d rest
  | wrCurNs d => exact decode_encode_writeInstr .curNs d rest
  | wrCurSecLo d => exact decode_encode_writeInstr .curSecLo d rest
  | wrCurSecHi d => exact decode_encode_writeInstr .curSecHi d rest
  | wrIntStatus d => exact decode_encode_writeInstr .intStatus d rest
  | wrPulseOffset8k d => exact decode_encode_writeInstr .pulseOffset8k d rest
  | wrCorrectionField0 d => exact decode_encode_writeInstr .correctionField0 d rest
  | wrCorrectionField1 d => exact decode_encode_writeInstr .correctionField1 d rest
  | getTime => rfl
  | setTime target => exact decode_encode_setTime hwf rest
  | adjTime d => exact decode_encode_adjTime d rest
  | adjFreq ppb => exact decode_encode_adjFreq ppb rest
  | enable req => exact decode_encode_enable hwf rest
  | tick | pulse | ihEntry | register | deregister | lockAcq | lockRel => rfl

/-! ### The code of what was decoded (rules R71 to R78) -/

/-- A register stands at the one offset that selects it (rule R72). -/
theorem offset_of_ofOffset {a : BitVec 6} {r : Reg} (h : Reg.ofOffset a = some r) : r.offset = a := by
  unfold Reg.ofOffset at h
  split at h <;> rename_i ha <;> cases h
  all_goals exact BitVec.eq_of_toNat_eq ha.symm

section Encode

variable {ops rest : List Byte} {i : Instr}

theorem encode_of_decodeBus {w : Bool} {a : BitVec 6} (h : decodeBus w a ops = .ok (i, rest)) :
    encode i ++ rest = busKey w a :: ops := by
  unfold decodeBus at h
  split at h
  · cases h
  · split at h
    · cases h
    · rename_i r hr
      cases offset_of_ofOffset hr
      cases w with
      | false =>
        cases h
        rw [encode_readInstr, List.singleton_append]
      | true =>
        simp only [if_true] at h
        split at h
        · cases h
        · rename_i d tail hd
          cases h
          rw [encode_writeInstr, List.cons_append, wordBytes_of_takeWord hd]

/-- A code in `key[2:0]`, from its number. -/
theorem eq_ofNat_of_toNat_eq {n : BitVec 3} {m : Nat} (h : n.toNat = m) : n = BitVec.ofNat 3 m := by
  rw [← h, BitVec.ofNat_toNat, BitVec.setWidth_eq]

theorem encode_of_decodeHostOp {op : BitVec 3} (h : decodeHostOp op ops = .ok (i, rest)) :
    encode i ++ rest = opKey false op :: ops := by
  unfold decodeHostOp at h
  split at h <;> rename_i hop
  · cases h
    rw [eq_ofNat_of_toNat_eq hop]
    rfl
  · split at h
    · cases h
    · rename_i sec ops1 hsec
      split at h
      · cases h
      · rename_i ns tail hns
        cases h
        rw [encode_setTime, BitVec.ofInt_toInt, BitVec.ofInt_natCast, BitVec.ofNat_toNat, BitVec.setWidth_eq,
          List.cons_append, List.append_assoc, wordBytes_of_takeWord hns, dwordBytes_of_takeDWord hsec,
          eq_ofNat_of_toNat_eq hop]
  · split at h
    · cases h
    · rename_i d tail hd
      cases h
      rw [encode_adjTime, List.cons_append, dwordBytes_of_takeDWord hd, eq_ofNat_of_toNat_eq hop]
  · split at h
    · cases h
    · rename_i ppb tail hppb
      cases h
      rw [encode_adjFreq, List.cons_append, wordBytes_of_takeWord hppb, eq_ofNat_of_toNat_eq hop]
  · split at h
    · cases h
    · rename_i kind tail hkind
      cases h
      rw [encode_enable, BitVec.ofNat_toNat, BitVec.setWidth_eq, List.cons_append, wordBytes_of_takeWord hkind,
        eq_ofNat_of_toNat_eq hop]
  · cases h

theorem encode_of_decodeStep {ev : BitVec 3} (h : decodeStep ev ops = .ok (i, rest)) :
    encode i ++ rest = opKey true ev :: ops := by
  unfold decodeStep at h
  split at h <;> rename_i hev <;> cases h
  all_goals
    rw [eq_ofNat_of_toNat_eq hev]
    rfl

end Encode

/-- Settles O2: by the format of the key, in each of which what was read gives back the bytes it was read from. -/
theorem encodeOfDecodeIsTheCode : Obligations.EncodeOfDecodeIsTheCode := by
  unfold Obligations.EncodeOfDecodeIsTheCode
  intro bs i rest h
  cases bs with
  | nil => cases h
  | cons key ops =>
    cases keyFormat key with
    | bus w a => rw [decode_busKey] at h; exact encode_of_decodeBus h
    | hostOp op => rw [decode_hostOpKey] at h; exact encode_of_decodeHostOp h
    | step ev => rw [decode_stepKey] at h; exact encode_of_decodeStep h
    | noFormat h7 hmid => rw [decode_noFormat h7 hmid] at h; cases h

/-- Settles O3: each word is a closed code, on which the decoder is evaluated. -/
theorem tableWordsDecode : Obligations.TableWordsDecode :=
  ⟨rfl, rfl, rfl, rfl, rfl, rfl, rfl⟩

/-! ### Codes that select nothing (rules R73, R79, R124) -/

/-- A code that selects nothing is refused for its reason, whoever issues it (log 39). -/
theorem step_issue_error {s : State} {a : Agent} {code : List Byte} {r : Refusal} {rest : List Entry}
    (hs : s.schedule = .issue a code :: rest) (h : instrOf code = .error r) : step s = .refused r := by
  simp only [step, State.fetch, hs, State.take, h]

/-- A refused entry settles to the state behind it with the mark set (rules R17, R36). -/
theorem settle_of_entry_refused {s : State} {e : Entry} {r : Refusal} {rest : List Entry}
    (hs : s.schedule = e :: rest) (h : step s = .refused r) :
    settle s = { s with schedule := rest, refused := true } := by
  rw [settle_of_refused h, State.afterRefusal, hs]
  rfl

/-- The aligned offsets without a register (rule R73). -/
theorem aligned_noRegister_of_reserved : ∀ a ∈ ([0x04, 0x28, 0x34, 0x38, 0x3C] : List (BitVec 6)),
    a.extractLsb' 0 2 = 0 ∧ Reg.ofOffset a = none := by
  decide

theorem decodeBus_noRegister {a : BitVec 6} (w : Bool) (ops : List Byte) (haligned : a.extractLsb' 0 2 = 0)
    (hnone : Reg.ofOffset a = none) : decodeBus w a ops = .error .reservedOffset := by
  simp [decodeBus, haligned, hnone]

/-- Both ways a BUS key is reserved have one reason (rules R73, R124; log 13). -/
theorem instrOf_busKey_reserved {a : BitVec 6} (w : Bool) (ops : List Byte)
    (h : a.extractLsb' 0 2 ≠ 0 ∨ a ∈ ([0x04, 0x28, 0x34, 0x38, 0x3C] : List (BitVec 6))) :
    instrOf (busKey w a :: ops) = .error .reservedOffset := by
  obtain hmis | hres := h
  · exact instrOf_error (e := .misaligned) (by rw [decode_busKey, decodeBus_misaligned w ops hmis])
  · obtain ⟨haligned, hnone⟩ := aligned_noRegister_of_reserved a hres
    exact instrOf_error (e := .reservedOffset) (by rw [decode_busKey, decodeBus_noRegister w ops haligned hnone])

/-- `A[1:0]` are the low bits of the key. -/
theorem extract_offset_alignment (key : Byte) : (key.extractLsb' 0 6).extractLsb' 0 2 = key.extractLsb' 0 2 := by
  apply BitVec.eq_of_toNat_eq
  simp only [BitVec.extractLsb'_toNat, Nat.shiftRight_zero]
  omega

/-- Settles O4: the key is a BUS key of a reserved offset, and the refused entry settles to the mark. -/
theorem reservedOffsetIsRefused : Obligations.ReservedOffsetIsRefused := by
  unfold Obligations.ReservedOffsetIsRefused
  intro s a key ops rest h7 hreserved hs
  rw [← extract_offset_alignment] at hreserved
  have hnothing : instrOf (key :: ops) = .error .reservedOffset := by
    rw [eq_busKey h7]
    exact instrOf_busKey_reserved _ ops hreserved
  have hstep := step_issue_error hs hnothing
  exact ⟨hstep, settle_of_entry_refused hs hstep⟩

theorem opKey_toNat : ∀ (b : Bool) (n : BitVec 3), (opKey b n).toNat = 128 + 64 * b.toNat + n.toNat := by
  decide

theorem busKey_lt (w : Bool) (a : BitVec 6) : (busKey w a).toNat < 128 := by
  have h7 : (busKey w a).msb = false := by rw [BitVec.msb_eq_getLsbD_last, busKey_getLsbD]; rfl
  have := BitVec.msb_eq_false_iff_two_mul_lt.mp h7
  omega

theorem decodeHostOp_reserved {op : BitVec 3} (ops : List Byte) (h : 5 ≤ op.toNat) :
    decodeHostOp op ops = .error .reservedKey := by
  obtain hop | hop | hop : op.toNat = 5 ∨ op.toNat = 6 ∨ op.toNat = 7 := by omega
  all_goals simp [decodeHostOp, hop]

theorem decodeStep_reserved {ev : BitVec 3} (ops : List Byte) (h : 7 ≤ ev.toNat) :
    decodeStep ev ops = .error .reservedKey := by
  have hev : ev.toNat = 7 := by omega
  simp [decodeStep, hev]

/-- The keys of rule R79 select nothing: BUS keys lie below them, and in the two other formats they have no row. -/
theorem decode_reservedKey {key : Byte} (ops : List Byte)
    (h : (0x85 ≤ key.toNat ∧ key.toNat ≤ 0xBF) ∨ 0xC7 ≤ key.toNat) : decode (key :: ops) = .error .reservedKey := by
  cases keyFormat key with
  | bus w a =>
    have := busKey_lt w a
    omega
  | hostOp op =>
    rw [opKey_toNat, Bool.toNat_false] at h
    rw [decode_hostOpKey, decodeHostOp_reserved ops (by omega)]
  | step ev =>
    rw [opKey_toNat, Bool.toNat_true] at h
    rw [decode_stepKey, decodeStep_reserved ops (by omega)]
  | noFormat h7 hmid => exact decode_noFormat h7 hmid ops

/-- An agent that is offered a selected instruction is not refused as one that selects nothing. -/
theorem selectsNothing_of_offer_refused {s u : State} {a : Agent} {i : Instr} {r : Refusal}
    (hf : s.fetch = u.offer a i) (hr : step s = .refused r) : r.selectsNothing = false := by
  rw [step, hf] at hr
  split at hr
  · exact selectsNothing_of_exec_refused hr
  · cases hr
  · cases hr
  · rename_i hoff
    cases hr
    obtain rfl | rfl := State.offer_refuse hoff <;> rfl

theorem fetch_issue {s : State} {a : Agent} {code : List Byte} {i : Instr} {rest : List Entry}
    (hs : s.schedule = .issue a code :: rest) (h : instrOf code = .ok i) :
    s.fetch = State.offer a i { s with schedule := rest } := by
  simp only [State.fetch, hs, State.take, h]

/-- The six keys of writes to read-only or unused registers are BUS keys of registers (rules R72, R101). -/
theorem exists_reg_of_refusedWriteKey : ∀ key ∈ ([0x54, 0x58, 0x5C, 0x64, 0x6C, 0x70] : List Byte),
    ∃ r : Reg, key = busKey true r.offset := by
  simp only [List.forall_mem_cons]
  exact ⟨⟨.curNs, rfl⟩, ⟨.curSecLo, rfl⟩, ⟨.curSecHi, rfl⟩, ⟨.pulseOffset8k, rfl⟩, ⟨.correctionField0, rfl⟩,
    ⟨.correctionField1, rfl⟩, nofun⟩

/-- Settles O5: the keys of the two ranges decode to nothing, and the six write keys to the write of a register. -/
theorem reservedKeyIsRefused : Obligations.ReservedKeyIsRefused := by
  unfold Obligations.ReservedKeyIsRefused
  refine ⟨fun s a key ops rest hkey hs => ?_, fun key hkey s a d rest hs hr => ?_⟩
  · exact step_issue_error hs (instrOf_error (decode_reservedKey ops hkey))
  · obtain ⟨r, rfl⟩ := exists_reg_of_refusedWriteKey key hkey
    obtain ⟨i, hi⟩ := instrOf_busKey_offset r true fun _ => wordBytes_length d
    cases selectsNothing_of_offer_refused (fetch_issue hs hi) hr

/-! ### The guard (rules R77, R170) -/

section Guard

variable {s : State} {k : Nat} {c : Ctx} (hact : s.Acting k c)
include hact

theorem exec_lockAcq_free (hop : c.op ≠ .idle) (hfirst : c.sp = 0) (hfree : s.lock = none) :
    exec .lockAcq s = .next { s with lock := some k, callers := s.callers.set k { c with sp := 1 } } := by
  have hn : c.nextInstr s.params = some .lockAcq := Ctx.nextInstr_lockAcq.mpr ⟨hop, hfirst⟩
  rw [exec, execLockAcq, State.guardStep_next _ hact hn, State.acquire_free hact.2 hfree, Ctx.after_next 0 hn,
    Ctx.advance_first 0 hop hfirst]

theorem exec_lockAcq_held {j : Nat} (hop : c.op ≠ .idle) (hfirst : c.sp = 0) (hheld : s.lock = some j) :
    exec .lockAcq s = .next s := by
  rw [exec, execLockAcq, State.guardStep_next _ hact (Ctx.nextInstr_lockAcq.mpr ⟨hop, hfirst⟩),
    State.acquire_held hheld]

theorem exec_lockRel_holder (hop : c.op ≠ .idle) (hlast : c.sp = c.lastStep) (hheld : s.lock = some k) :
    exec .lockRel s = .next { s with
      lock := none
      callers := s.callers.set k (c.ret (if c.op = .getTime then .okTime c.tv else .ok)) } := by
  have hn : c.nextInstr s.params = some .lockRel := Ctx.nextInstr_lockRel.mpr ⟨hop, hlast⟩
  rw [exec, execLockRel, State.guardStep_next _ hact hn, if_pos hheld, State.release_holder hact.2,
    Ctx.after_next 0 hn, Ctx.advance_last 0 hop hlast]

theorem exec_lockRel_notHolder (hop : c.op ≠ .idle) (hlast : c.sp = c.lastStep) (hnot : s.lock ≠ some k) :
    exec .lockRel s = .refused .guardNotHeld := by
  rw [exec, execLockRel, State.guardStep_next _ hact (Ctx.nextInstr_lockRel.mpr ⟨hop, hlast⟩), if_neg hnot]

theorem exec_lockAcq_elsewhere (h : c.op = .idle ∨ c.sp ≠ 0) : exec .lockAcq s = .refused .outOfSequence :=
  State.guardStep_elsewhere _ hact fun hn => by
    obtain ⟨hop, hfirst⟩ := Ctx.nextInstr_lockAcq.mp hn
    exact h.elim hop (absurd hfirst)

theorem exec_lockRel_elsewhere (h : c.op = .idle ∨ c.sp ≠ c.lastStep) : exec .lockRel s = .refused .outOfSequence :=
  State.guardStep_elsewhere _ hact fun hn => by
    obtain ⟨hop, hlast⟩ := Ctx.nextInstr_lockRel.mp hn
    exact h.elim hop (absurd hlast)

end Guard

/-- Settles O30: at the place of its guard step a caller takes or waits, releases or is refused; elsewhere it has no
guard step. -/
theorem guardIsTakenFreeAndHeldOtherwise : Obligations.GuardIsTakenFreeAndHeldOtherwise := by
  unfold Obligations.GuardIsTakenFreeAndHeldOtherwise
  intro s k c hact
  refine ⟨fun hop hfirst => ⟨?_, fun j => ?_⟩, fun hop hlast => ⟨?_, ?_⟩, ?_, ?_⟩
  · exact exec_lockAcq_free hact hop hfirst
  · exact exec_lockAcq_held hact hop hfirst
  · exact exec_lockRel_holder hact hop hlast
  · exact exec_lockRel_notHolder hact hop hlast
  · exact exec_lockAcq_elsewhere hact
  · exact exec_lockRel_elsewhere hact

/-! ### The operand of SET_TIME (rules R74, R75) -/

/-- Settles O32: a target out of range in one of the four ways fails the test that `SET_TIME` makes first. -/
theorem setTimeOutOfRangeIsRefused : Obligations.SetTimeOutOfRangeIsRefused := by
  unfold Obligations.SetTimeOutOfRangeIsRefused
  intro s target hout
  have hnot : ¬ target.inTargetRange = true := by
    rw [inTargetRange_iff]
    omega
  rw [exec, execSetTime, if_neg hnot]

end Sys2Proof.Machine
end

section
/-! The register interface: what a caller's read of each register gives it and what its write of each register changes,
that no step of the core is refused, what the coarse path of `adjust_time` leaves in the offset, and the obligations of
40_register_interface.md settled from these. -/

namespace Sys2Proof.Machine

/-! ### A caller's reads (rules R71, R100) -/

section Read

variable {s : State} {k : Nat} {c : Ctx} {r : Reg} {v : Word} (h : s.Acting k c)
include h

/-- The read of a register whose word the state fixes takes no draw. -/
theorem exec_read_fixed (hdraws : s.regDraws r = false) (hv : s.regValue r = v) :
    exec r.readInstr s = .next { s with
      callers := s.callers.set k { c.after s.params r.readInstr v with rdata := v } } := by
  rw [exec_readInstr, State.busRead_acting r h, hdraws, hv]
  rfl

/-- The read of a register whose word the state leaves open takes one draw. -/
theorem exec_read_drawn (hdraws : s.regDraws r = true) (hv : s.regValue r = v) :
    exec r.readInstr s = .next { s with
      draws := s.draws + 1
      callers := s.callers.set k { c.after s.params r.readInstr v with rdata := v } } := by
  rw [exec_readInstr, State.busRead_acting r h, hdraws, hv]
  rfl

end Read

/-! ### The offset registers (rules R102, R104, R106) -/

/-- One of two words is the one or the other (log 8). -/
theorem drawOneOf_eq_or (draw staged active : Word) :
    drawOneOf draw staged active = staged ∨ drawOneOf draw staged active = active :=
  ite_eq_or_eq _ _ _

/-- The read of a seconds word of the offset: while the staged and the active word are the same it gives that word, and
while they differ one of them, by a draw (rules R104, R106). -/
theorem exec_read_secondsWord {s : State} {k : Nat} {c : Ctx} {r : Reg} {staged active : Word} (h : s.Acting k c)
    (hdraws : s.regDraws r = (staged != active))
    (hv : s.regValue r = if staged = active then active else drawOneOf s.draw staged active) :
    (staged = active → exec r.readInstr s = .next { s with
      callers := s.callers.set k { c.after s.params r.readInstr staged with rdata := staged } }) ∧
    (staged ≠ active → ∃ v, (v = staged ∨ v = active) ∧ exec r.readInstr s = .next { s with
      draws := s.draws + 1
      callers := s.callers.set k { c.after s.params r.readInstr v with rdata := v } }) := by
  refine ⟨fun hsame => ?_, fun hdiffer => ?_⟩
  · rw [if_pos hsame, ← hsame] at hv
    exact exec_read_fixed h (by simp [hdraws, hsame]) hv
  · rw [if_neg hdiffer] at hv
    exact ⟨_, drawOneOf_eq_or .., exec_read_drawn h (by simp [hdraws, hdiffer]) hv⟩

/-- Settles O13: OFFSET_NS has one word, and each seconds word is read as `exec_read_secondsWord` says. -/
theorem offsetReadsGiveTheActiveOffset : Obligations.OffsetReadsGiveTheActiveOffset := by
  unfold Obligations.OffsetReadsGiveTheActiveOffset
  intro s k c hact
  obtain ⟨hloSame, hloDiffer⟩ := exec_read_secondsWord (r := .offsetSecLo) hact rfl rfl
  obtain ⟨hhiSame, hhiDiffer⟩ := exec_read_secondsWord (r := .offsetSecHi) hact rfl rfl
  exact ⟨exec_read_fixed (r := .offsetNs) hact rfl rfl, hloSame, hloDiffer, hhiSame, hhiDiffer⟩

/-! ### The current-time registers (rules R110, R112, R114, R132) -/

theorem State.curDefined_iff {s : State} : s.curDefined = true ↔ s.offNs.toNat < 1000000000 :=
  decide_eq_true_iff

/-- Where the sum of the nanoseconds stays below one second nothing is carried (rule R132). -/
theorem State.cur_below {s : State} (h : s.nsSum < 1000000000) :
    s.curNs = s.nsSum ∧ s.curSec = s.ctrSec + s.offSec := by
  have hcarry : s.nsCarry = 0 := if_neg (Nat.not_le.mpr h)
  simp [State.curNs, State.curSec, hcarry]

/-- At one second of nanoseconds and above, one is carried (rule R132). -/
theorem State.cur_carry {s : State} (h : 1000000000 ≤ s.nsSum) :
    s.curNs = s.nsSum - 1000000000 ∧ s.curSec = s.ctrSec + s.offSec + 1 := by
  have hcarry : s.nsCarry = 1 := if_pos h
  simp [State.curNs, State.curSec, hcarry]

/-- With counter and offset in range the composed nanoseconds are in range too (rule R132). -/
theorem State.curNs_lt {s : State} (hctr : s.ctrNsfx < 1000000000 * 1048576) (hoff : s.offNs.toNat < 1000000000) :
    s.curNs < 1000000000 := by
  have hsum : s.nsSum = s.ctrNsfx / 1048576 + s.offNs.toNat := rfl
  obtain hlt | hle := Nat.lt_or_ge s.nsSum 1000000000
  · rwa [(State.cur_below hlt).1]
  · rw [(State.cur_carry hle).1]
    omega

/-- While the composition is defined the three registers read it, without a draw. -/
theorem State.regValue_cur {s : State} (h : s.curDefined = true) :
    (s.regDraws .curNs = false ∧ s.regValue .curNs = BitVec.ofNat 32 s.curNs) ∧
    (s.regDraws .curSecLo = false ∧ s.regValue .curSecLo = s.curSec.extractLsb' 0 32) ∧
    (s.regDraws .curSecHi = false ∧ s.regValue .curSecHi = s.curSec.extractLsb' 32 32) := by
  simp [State.regDraws, State.regValue, h]

/-- Settles O14: the registers read the composition, which is the sum with or without its one carry. -/
theorem currentTimeReadsTheComposition : Obligations.CurrentTimeReadsTheComposition := by
  unfold Obligations.CurrentTimeReadsTheComposition
  rintro s k c n ns sec hact hctr hoff rfl hns hsec
  have hcur : BitVec.ofNat 32 s.curNs = ns ∧ s.curSec = sec := by
    have hsum : s.nsSum = s.ctrNsfx / 1048576 + s.offNs.toNat := rfl
    rw [hns, hsec, ← hsum]
    split
    · obtain ⟨h1, h2⟩ := State.cur_below ‹_›
      simp [h1, h2]
    · obtain ⟨h1, h2⟩ := State.cur_carry (Nat.not_lt.mp ‹_›)
      simp [h1, h2]
  obtain ⟨rfl, rfl⟩ := hcur
  obtain ⟨⟨hd1, hv1⟩, ⟨hd2, hv2⟩, hd3, hv3⟩ := State.regValue_cur (State.curDefined_iff.mpr hoff)
  refine ⟨?_, exec_read_fixed (r := .curNs) hact hd1 hv1, exec_read_fixed (r := .curSecLo) hact hd2 hv2,
    exec_read_fixed (r := .curSecHi) hact hd3 hv3⟩
  have := State.curNs_lt hctr hoff
  rw [BitVec.toNat_ofNat]
  omega

/-! ### Registers of unknown content (rules R108, R118, R120, R122, R133) -/

/-- Settles O15: each of the reads is of a register whose word is the draw itself. -/
theorem unknownReadsDraw : Obligations.UnknownReadsDraw := by
  unfold Obligations.UnknownReadsDraw
  intro s k c i hact hi
  have drawn (r : Reg) (hdraws : s.regDraws r = true) (hv : s.regValue r = s.draw) :=
    exec_read_drawn hact hdraws hv
  obtain rfl | rfl | rfl | rfl | ⟨hoff, hcur⟩ := hi
  · exact drawn .increment rfl rfl
  · exact drawn .pulseOffset8k rfl rfl
  · exact drawn .correctionField0 rfl rfl
  · exact drawn .correctionField1 rfl rfl
  · have hundef : s.curDefined = false := decide_eq_false (Nat.not_lt.mpr hoff)
    obtain rfl | rfl | rfl := hcur
    · exact drawn .curNs (by simp [State.regDraws, hundef]) (by simp [State.regValue, hundef])
    · exact drawn .curSecLo (by simp [State.regDraws, hundef]) (by simp [State.regValue, hundef])
    · exact drawn .curSecHi (by simp [State.regDraws, hundef]) (by simp [State.regValue, hundef])

/-! ### INT_STATUS (rules R116, R117) -/

/-- Bit 0 of the INT_STATUS word is `INT_PEND`, the bits above it are those of the draw (rule R116). -/
theorem getLsbD_intStatusWord (draw : Word) (pend : Bool) (j : Nat) :
    (intStatusWord draw pend).getLsbD j = if j = 0 then pend else draw.getLsbD j := by
  have happ := BitVec.getLsbD_append (x := draw.extractLsb' 1 31) (y := BitVec.ofBool pend) (i := j)
  refine happ.trans ?_
  cases j with
  | zero => simp
  | succ j =>
    simpa [Nat.add_comm 1 j] using fun hbit => Nat.lt_of_succ_lt_succ (BitVec.lt_of_getLsbD hbit)

/-- Settles O16: the word read is the INT_STATUS word, on a draw that the read takes. -/
theorem intStatusReadsPendInBitZero : Obligations.IntStatusReadsPendInBitZero := by
  unfold Obligations.IntStatusReadsPendInBitZero
  intro s k c hact
  refine ⟨intStatusWord s.draw s.intPend, ?_, fun j hj => ?_, exec_read_drawn (r := .intStatus) hact rfl rfl⟩
  · rw [getLsbD_intStatusWord, if_pos rfl]
  · rw [getLsbD_intStatusWord, if_neg (Nat.one_le_iff_ne_zero.mp hj)]
    rfl

/-! ### A caller's writes (rules R101 to R117) -/

section Write

variable {s : State} {k : Nat} {c : Ctx} (d : Word) (h : s.Acting k c)
include h

theorem exec_wrOffsetNs_acting : exec (.wrOffsetNs d) s = .next { s with
    offNs := d
    offSec := s.stgSecHi ++ s.stgSecLo
    callers := s.callers.set k (c.after s.params (.wrOffsetNs d) 0) } :=
  congrArg _ (State.wrote_acting (s := s.commitOffset d) _ h)

theorem exec_wrOffsetSecLo_acting : exec (.wrOffsetSecLo d) s = .next { s with
    stgSecLo := d
    callers := s.callers.set k (c.after s.params (.wrOffsetSecLo d) 0) } :=
  congrArg _ (State.wrote_acting (s := s.stageSecLo d) _ h)

theorem exec_wrOffsetSecHi_acting : exec (.wrOffsetSecHi d) s = .next { s with
    stgSecHi := d
    callers := s.callers.set k (c.after s.params (.wrOffsetSecHi d) 0) } :=
  congrArg _ (State.wrote_acting (s := s.stageSecHi d) _ h)

theorem exec_wrIncrement_acting : exec (.wrIncrement d) s = .next { s with
    inc := d
    callers := s.callers.set k (c.after s.params (.wrIncrement d) 0) } :=
  congrArg _ (State.wrote_acting (s := s.writeInc d) _ h)

theorem exec_wrIntStatus_acting : exec (.wrIntStatus d) s = .next { s with
    intPend := s.intPend && !(d.getLsbD 0)
    callers := s.callers.set k (c.after s.params (.wrIntStatus d) 0) } := by
  have hcaller : s.actor ≠ .ih := by simp [h.1]
  rw [exec, execWrIntStatus, if_neg hcaller]
  exact congrArg _ (State.wrote_acting (s := s.clearPend d) _ h)

end Write

/-- Settles O17: `exec_wrOffsetNs_acting`, in the statement's words. -/
theorem offsetNsWriteCommitsBothWords : Obligations.OffsetNsWriteCommitsBothWords := by
  unfold Obligations.OffsetNsWriteCommitsBothWords
  exact fun s k c d hact => exec_wrOffsetNs_acting d hact

/-- Settles O18: the composition does not read the staging registers. -/
theorem secondsWritesOnlyStage : Obligations.SecondsWritesOnlyStage := by
  unfold Obligations.SecondsWritesOnlyStage
  intro s k c d hact
  exact ⟨_, _, exec_wrOffsetSecLo_acting d hact, exec_wrOffsetSecHi_acting d hact, rfl, rfl,
    (State.curNs_congr rfl rfl).2, State.curSec_congr rfl rfl rfl rfl,
    (State.curNs_congr rfl rfl).2, State.curSec_congr rfl rfl rfl rfl⟩

/-- The counter's units in all, seconds and fraction: a tick adds `INC`, modulo 2^64 seconds (rules R130, R135). -/
theorem State.tickCounter_total (s : State) :
    s.tickCounter.ctrNsfx + s.tickCounter.ctrSec.toNat * (1000000000 * 1048576) ≡
      s.ctrNsfx + s.ctrSec.toNat * (1000000000 * 1048576) + s.inc.toNat
      [MOD 18446744073709551616 * (1000000000 * 1048576)] := by
  obtain hlt | hle := Nat.lt_or_ge (s.ctrNsfx + s.inc.toNat) Config.nsfxPerSec
  · rw [State.tickCounter_below hlt]
    exact congrArg (· % _) (Nat.add_right_comm ..)
  · rw [State.tickCounter_carry hle]
    have hsec : (s.ctrSec + 1).toNat ≡ s.ctrSec.toNat + 1 [MOD 18446744073709551616] := by
      simp [Nat.ModEq, BitVec.toNat_add]
    have hsum : s.ctrNsfx + s.inc.toNat - Config.nsfxPerSec + (s.ctrSec.toNat + 1) * (1000000000 * 1048576) =
        s.ctrNsfx + s.ctrSec.toNat * (1000000000 * 1048576) + s.inc.toNat := by
      simp only [Config.nsfxPerSec] at hle ⊢
      omega
    rw [← hsum]
    exact (hsec.mul_right' _).add_left _

/-- Settles O19: the tick behind the write adds the word written. -/
theorem incrementWriteSetsTheRate : Obligations.IncrementWriteSetsTheRate := by
  unfold Obligations.IncrementWriteSetsTheRate
  intro s k c d hact
  exact ⟨_, exec_wrIncrement_acting d hact, rfl, _, rfl, State.tickCounter_total _⟩

/-- Settles O20: bit 0 of the word decides whether `INT_PEND` is cleared or kept. -/
theorem intStatusWriteOneClears : Obligations.IntStatusWriteOneClears := by
  unfold Obligations.IntStatusWriteOneClears
  intro s k c d hact
  rw [exec_wrIntStatus_acting d hact]
  cases d.getLsbD 0 <;> simp

/-! ### Writes without a meaning (rules R111 to R115, R119 to R123) -/

/-- Settles O21: each code is that of the write, which answers the refusal whatever the state. -/
theorem readOnlyWritesAreRefused : Obligations.ReadOnlyWritesAreRefused := by
  unfold Obligations.ReadOnlyWritesAreRefused
  exact fun s d => ⟨⟨decode_encode_writeInstr .curNs d [], rfl⟩, ⟨decode_encode_writeInstr .curSecLo d [], rfl⟩,
    decode_encode_writeInstr .curSecHi d [], rfl⟩

/-- Settles O22: each code is that of the write, which answers the refusal whatever the state. -/
theorem unusedWritesAreRefused : Obligations.UnusedWritesAreRefused := by
  unfold Obligations.UnusedWritesAreRefused
  exact fun s d => ⟨⟨decode_encode_writeInstr .pulseOffset8k d [], rfl⟩,
    ⟨decode_encode_writeInstr .correctionField0 d [], rfl⟩, decode_encode_writeInstr .correctionField1 d [], rfl⟩

/-! ### The core's own steps (rules R62, R125) -/

/-- The sequences list the two guard steps, four reads and four writes (rules R172 to R177). -/
theorem Ctx.nextInstr_cases {c : Ctx} {p : Params} {i : Instr} (hn : c.nextInstr p = some i) :
    i = .lockAcq ∨ i = .lockRel ∨ (i = .rdCurNs ∨ i = .rdCurSecLo ∨ i = .rdOffsetNs ∨ i = .rdOffsetSecLo) ∨
      ∃ d, i = .wrOffsetNs d ∨ i = .wrOffsetSecLo d ∨ i = .wrOffsetSecHi d ∨ i = .wrIncrement d := by
  unfold Ctx.nextInstr at hn
  repeat' split at hn
  all_goals cases hn
  all_goals simp

/-- A caller without an operation in progress has no step at its turn: a hold (log 3). -/
theorem step_go_idle {s : State} {k : Nat} {c : Ctx} {rest : List Entry} (hs : s.schedule = .go k :: rest)
    (hc : s.callers[k]? = some c) (hidle : c.op = .idle) : step s = .next { s with schedule := rest } := by
  have hnone : c.nextInstr s.params = none := by simp [Ctx.nextInstr, hidle]
  simp only [step, State.fetch, hs, State.take, hc, hnone]

/-- A host operation that an idle caller starts with operands in their domains is not refused (rules R37, R75). -/
theorem exec_hostOperation_next {s : State} {k : Nat} {c : Ctx} {i : Instr} (h : s.Acting k c) (hidle : c.op = .idle)
    (hwf : i.wellFormed = true)
    (hi : i = .getTime ∨ (∃ target, i = .setTime target) ∨ (∃ d, i = .adjTime d) ∨ (∃ ppb, i = .adjFreq ppb) ∨
      ∃ req, i = .enable req) : ∃ t, exec i s = .next t := by
  obtain rfl | ⟨target, rfl⟩ | ⟨d, rfl⟩ | ⟨ppb, rfl⟩ | ⟨req, rfl⟩ := hi
  · exact ⟨_, State.hostOp_idle _ h hidle⟩
  · exact ⟨_, (if_pos hwf).trans (State.hostOp_idle _ h hidle)⟩
  · exact ⟨_, State.hostOp_idle _ h hidle⟩
  · exact ⟨_, State.hostOp_idle _ h hidle⟩
  · exact ⟨_, State.hostOp_idle _ h hidle⟩

/-- A turn of a caller answers a next state: of an idle one the hold, of another its next step, at which it takes the
guard or waits for it, releases the guard that it holds by the invariant, or makes an access that always completes. -/
theorem step_go_next {s : State} {k : Nat} {c : Ctx} {rest : List Entry} (hinv : s.Inv) (ha : s.attached = true)
    (hc : s.callers[k]? = some c) (hs : s.schedule = .go k :: rest) : ∃ t, step s = .next t := by
  by_cases ho : c.op = .idle
  · exact ⟨_, step_go_idle hs hc ho⟩
  obtain ⟨i, hn⟩ := Ctx.exists_nextInstr s.params ho (hinv.legal k c hc).1
  obtain rfl | rfl | hread | ⟨d, hwrite⟩ := Ctx.nextInstr_cases hn
  · cases hl : s.lock with
    | none => exact ⟨_, step_go_lockAcq hs ha hc hn hl⟩
    | some j => exact ⟨_, step_go_waits hs ha hc hn hl⟩
  · have hlast : c.sp = c.lastStep := (Ctx.nextInstr_lockRel.mp hn).2
    have hinside : c.Inside := ⟨ho, hlast ▸ Ctx.lastStep_pos ho⟩
    exact ⟨_, step_go_lockRel hs ha hc hn (hinv.guard k c hc hinside)⟩
  · rw [step_go hs ha hc hn]
    obtain rfl | rfl | rfl | rfl := hread <;> exact ⟨_, rfl⟩
  · rw [step_go hs ha hc hn]
    obtain rfl | rfl | rfl | rfl := hwrite <;> exact ⟨_, rfl⟩

/-- Settles O39: a turn by `step_go_next`; the start of an operation decodes to it, and an idle caller is free to issue
it; the acknowledgment is a write that completes whatever the handler's state. -/
theorem coreSequencesAreNeverRefused : Obligations.CoreSequencesAreNeverRefused := by
  unfold Obligations.CoreSequencesAreNeverRefused
  refine fun s rest hinv ha => ⟨fun k c hc hs => step_go_next hinv ha hc hs, fun k c i hc hidle hwf hi hs => ?_,
    fun hs => ?_⟩
  · have hhas : Agent.has (.caller k) i = true := by
      obtain rfl | ⟨_, rfl⟩ | ⟨_, rfl⟩ | ⟨_, rfl⟩ | ⟨_, rfl⟩ := hi <;> rfl
    have hdecode : decode (encode i) = .ok (i, []) := by simpa using decodeOfEncodeIsTheInstruction i [] hwf
    rw [step_issue hs hdecode hhas (State.hasAgent_caller hc) (.inl ha) (State.breaksOrder_idle i hc hidle)]
    exact exec_hostOperation_next ⟨rfl, hc⟩ hidle hwf hi
  · rw [step_issue hs (i := .wrIntStatus 1) (tail := []) rfl rfl rfl (.inl ha) rfl]
    exact ⟨_, rfl⟩

/-! ### The coarse path of `adjust_time` (rules R139, R171, R175, R176) -/

/-- A guarded operation that starts with the guard free is behind its first step, inside (rule R171). -/
theorem State.startGuarded_free {s : State} {k : Nat} {c : Ctx} {op : Op} (hc : s.callers[k]? = some c)
    (hop : op ≠ .idle) (hfree : s.lock = none) :
    s.startGuarded k op = { s with lock := some k, callers := s.callers.set k { c with op := op, sp := 1 } } := by
  have hn : ({ c with op := op, sp := 0 } : Ctx).nextInstr s.params = some .lockAcq :=
    Ctx.nextInstr_lockAcq.mpr ⟨hop, rfl⟩
  rw [State.startGuarded_acting op hc, hfree, Ctx.after_next 0 hn, Ctx.advance_first 0 hop rfl]

/-- An idle caller starts `adjust_time` with the guard free (rules R171, R175). -/
theorem step_adjTime_free {s : State} {k : Nat} {c : Ctx} {d : DWord} {rest : List Entry}
    (hs : s.schedule = issueOf (.caller k) (.adjTime d) :: rest) (ha : s.attached = true)
    (hc : s.callers[k]? = some c) (hidle : c.op = .idle) (hfree : s.lock = none) :
    step s = .next { s with
      schedule := rest
      actor := .caller k
      lock := some k
      callers := s.callers.set k { c with op := .adjTime d, sp := 1 } } := by
  have hdecode : decode (encode (.adjTime d)) = .ok (.adjTime d, []) := by simpa using decode_encode_adjTime d []
  rw [step_issue hs hdecode rfl (State.hasAgent_caller hc) (.inl ha) (State.breaksOrder_idle _ hc hidle), exec,
    execAdjTime, State.hostOp_idle (s := { s with schedule := rest, actor := .caller k }) _ ⟨rfl, hc⟩ hidle,
    State.startGuarded_free (s := { s with schedule := rest, actor := .caller k }) (op := .adjTime d) hc nofun hfree]

/-- Schedule, acting agent, contexts and guard do not enter what a read of a register gives. -/
theorem State.regValue_turn (r : Reg) (s : State) (l : List Entry) (a : Agent) (cs : List Ctx) (g : Option Nat) :
    State.regValue r { s with schedule := l, actor := a, callers := cs, lock := g } = s.regValue r := by
  cases r <;> rfl

theorem State.regDraws_turn (r : Reg) (s : State) (l : List Entry) (a : Agent) (cs : List Ctx) (g : Option Nat) :
    State.regDraws r { s with schedule := l, actor := a, callers := cs, lock := g } = s.regDraws r := by
  cases r <;> rfl

/-- The context of the coarse path behind its two reads, of `sec` and `ns`: the sum with `delta_ns` is computed (rules
R137, R176). -/
def Ctx.behindOffsetReads (d : DWord) (sec ns : Word) (c : Ctx) : Ctx :=
  { c with
    op := .adjTime d, sp := 3, rNs := ns, rSec := sec, rdata := sec, tv := tvAdd (tvOfWords sec ns) d.toInt }

section Coarse

/-! In a chain of steps the facts about a step's state are given by tactic blocks: these are elaborated last, when the
state is known from the goal. -/

variable {s : State} {k : Nat} {c : Ctx} {d : DWord} {rest : List Entry} (hcoarse : isCoarse d.toInt = true)
  (ha : s.attached = true) (hc : s.callers[k]? = some c) (hop : c.op = .adjTime d)
include hcoarse ha hc hop

/-- The first read of the coarse path gives OFFSET_NS. -/
theorem step_coarse_readNs (hsp : c.sp = 1) (hs : s.schedule = .go k :: rest) :
    step s = .next { s with
      schedule := rest
      actor := .caller k
      callers := s.callers.set k { c with sp := 2, rNs := s.offNs, rdata := s.offNs } } := by
  have hn : c.nextInstr s.params = some Reg.offsetNs.readInstr := by
    simp [Ctx.nextInstr, hop, hcoarse, hsp, Reg.readInstr]
  rw [step_go_read hs ha hc hn]
  simp only [Ctx.advance, hop, hcoarse, hsp, if_true]
  rfl

/-- The second read of the coarse path gives OFFSET_SEC_LO, and the caller adds `delta_ns` (rules R137, R176). -/
theorem step_coarse_readSec (hsp : c.sp = 2) (hs : s.schedule = .go k :: rest) :
    step s = .next { s with
      schedule := rest
      actor := .caller k
      draws := s.draws + (s.regDraws .offsetSecLo).toNat
      callers := s.callers.set k (c.behindOffsetReads d (s.regValue .offsetSecLo) c.rNs) } := by
  have hn : c.nextInstr s.params = some Reg.offsetSecLo.readInstr := by
    simp [Ctx.nextInstr, hop, hcoarse, hsp, Reg.readInstr]
  rw [step_go_read hs ha hc hn]
  simp only [Ctx.advance, Ctx.behindOffsetReads, hop, hcoarse, hsp, if_true]

/-- The two reads of the coarse path give it the offset. -/
theorem stepN_coarse_reads (hsp : c.sp = 1) (hs : s.schedule = .go k :: .go k :: rest) :
    stepN 2 s = some { s with
      schedule := rest
      actor := .caller k
      draws := s.draws + (s.regDraws .offsetSecLo).toNat
      callers := s.callers.set k (c.behindOffsetReads d (s.regValue .offsetSecLo) s.offNs) } := by
  refine (stepN_cons (step_coarse_readNs hcoarse ha hc hop hsp hs)).trans ?_
  refine (stepN_cons (step_coarse_readSec hcoarse (by exact ha) (by exact getElem?_set_acting _ hc) (by exact hop)
    (by rfl) (by rfl))).trans ?_
  simp only [stepN, State.regValue_turn, State.regDraws_turn, List.set_set, Ctx.behindOffsetReads]

/-- The three writes of the coarse path set the offset to the sum, and its last step returns (rules R139, R176). -/
theorem stepN_coarse_writes (hsp : c.sp = 3) (hheld : s.lock = some k)
    (hs : s.schedule = List.replicate 4 (.go k) ++ rest) :
    stepN 4 s = some { s with
      schedule := rest
      actor := .caller k
      offNs := low32 c.tv.ns
      offSec := 0#32 ++ low32 c.tv.sec
      stgSecLo := low32 c.tv.sec
      stgSecHi := 0
      lock := none
      callers := s.callers.set k (c.ret .ok) } := by
  refine (stepN_cons (step_go_wrOffsetSecHi (d := 0) hs ha hc ?_)).trans ?_
  · simp [Ctx.nextInstr, hop, hcoarse, hsp]
  refine (stepN_cons (step_go_wrOffsetSecLo (d := low32 c.tv.sec) (by rfl) (by exact ha)
    (by exact getElem?_set_acting _ hc) ?_)).trans ?_
  · simp [Ctx.nextInstr, Ctx.advance, hop, hcoarse, hsp]
  refine (stepN_cons (step_go_wrOffsetNs (d := low32 c.tv.ns) (by rfl) (by exact ha)
    (by exact getElem?_set_acting _ (getElem?_set_acting _ hc)) ?_)).trans ?_
  · simp [Ctx.nextInstr, Ctx.advance, hop, hcoarse, hsp]
  refine (stepN_cons (step_go_lockRel (by rfl) (by exact ha)
    (by exact getElem?_set_acting _ (getElem?_set_acting _ (getElem?_set_acting _ hc))) ?_ (by exact hheld))).trans ?_
  · simp [Ctx.nextInstr, Ctx.advance, hop, hcoarse, hsp]
  · simp [stepN, Ctx.advance, Ctx.ret, hop, hcoarse, hsp]

end Coarse

/-- The two words written for a sum are in range, and they are the sum modulo 2^32 seconds (rules R16, R138, R139). -/
theorem low32_tvAdd (old : TV) (d : Int) :
    ((low32 (tvAdd old d).ns).toNat : Int) < 1000000000 ∧
    (((low32 (tvAdd old d).sec).toNat : Int) * 1000000000 + (low32 (tvAdd old d).ns).toNat - (tvTotal old + d)) %
      (4294967296 * 1000000000) = 0 := by
  obtain ⟨hns0, hns⟩ : NsInRange (tvAdd old d) := tvNorm_nsInRange _
  rw [low32, low32, toNat_ofInt_targetNs hns0 hns, BitVec.toNat_ofInt]
  simp only [tvAdd, tvNorm, Config.nsecPerSec] at hns ⊢
  omega

/-- The coarse path alone, from an idle caller with the guard free (rules R175, R176; log 4). -/
theorem stepN_coarse {s : State} {k : Nat} {c : Ctx} {d : DWord} {rest : List Entry} {sec : Word} {tv : TV}
    (hcoarse : isCoarse d.toInt = true) (ha : s.attached = true) (hc : s.callers[k]? = some c) (hidle : c.op = .idle)
    (hfree : s.lock = none) (hsec : s.regValue .offsetSecLo = sec) (htv : tvAdd (tvOfWords sec s.offNs) d.toInt = tv)
    (hs : s.schedule = issueOf (.caller k) (.adjTime d) :: (List.replicate 6 (.go k) ++ rest)) :
    stepN 7 s = some { s with
      schedule := rest
      actor := .caller k
      draws := s.draws + (s.regDraws .offsetSecLo).toNat
      offNs := low32 tv.ns
      offSec := 0#32 ++ low32 tv.sec
      stgSecLo := low32 tv.sec
      stgSecHi := 0
      callers := s.callers.set k ((c.behindOffsetReads d sec s.offNs).ret .ok) } := by
  subst hsec htv
  refine (stepN_cons (step_adjTime_free hs ha hc hidle hfree)).trans ?_
  refine (stepN_add (m := 2) (n := 4) (stepN_coarse_reads (rest := List.replicate 4 (.go k) ++ rest) hcoarse
    (by exact ha) (by exact getElem?_set_acting _ hc) (by rfl) (by rfl) (by rfl))).trans ?_
  refine (stepN_coarse_writes (rest := rest) hcoarse (by exact ha)
    (by exact getElem?_set_acting _ (getElem?_set_acting _ hc)) (by rfl) (by rfl) (by rfl) (by rfl)).trans ?_
  simp only [State.regValue_turn, State.regDraws_turn, List.set_set, Ctx.behindOffsetReads, hfree]

/-- OFFSET_SEC_LO reads the active or the staged word (rule R104). -/
theorem State.regValue_offsetSecLo_eq_or (s : State) :
    s.regValue .offsetSecLo = s.offSecLo ∨ s.regValue .offsetSecLo = s.stgSecLo := by
  simp only [State.regValue]
  split
  · exact .inl rfl
  · exact (drawOneOf_eq_or ..).symm

/-- The read of OFFSET_SEC_LO takes a draw while the staged and the active word differ (rule R104). -/
theorem State.regDraws_offsetSecLo_toNat (s : State) :
    (s.regDraws .offsetSecLo).toNat = if s.stgSecLo = s.offSecLo then 0 else 1 := by
  simp only [State.regDraws]
  split <;> simp_all

/-- Seconds whose high word is 0 are their low word. -/
theorem toNat_zero_append (w : Word) : (0#32 ++ w : DWord).toNat = w.toNat :=
  (BitVec.toNat_append 0#32 w).trans (by simp)

/-- Settles O36: the run writes the sum that `tv_add` makes of the offset read, in its words. -/
theorem adjustTimeCoarseAddsToTheOffset : Obligations.AdjustTimeCoarseAddsToTheOffset := by
  unfold Obligations.AdjustTimeCoarseAddsToTheOffset
  intro s k c delta rest ha hc hidle hfree hcoarse hs
  obtain ⟨hns, hsum⟩ := low32_tvAdd (tvOfWords (s.regValue .offsetSecLo) s.offNs) delta.toInt
  refine ⟨_, _, s.regValue .offsetSecLo, stepN_coarse (decide_eq_true hcoarse) ha hc hidle hfree rfl rfl hs,
    s.regValue_offsetSecLo_eq_or, by rw [State.regDraws_offsetSecLo_toNat]; rfl, rfl, rfl, Int.ofNat_lt.mp hns, ?_,
    (extract_lo_append _ _).symm, ?_⟩
  · rw [toNat_zero_append]
    exact BitVec.isLt _
  · rw [toNat_zero_append]
    exact hsum

end Sys2Proof.Machine
end

section
/-! The offset model: the tick and runs of ticks, the low word of the composed seconds, the words that `write_offset`
leaves, and the range of the nanoseconds that the core writes; the obligations of 41_offset_model.md settled from these. -/

namespace Sys2Proof.Machine

/-! ### The tick (rules R130, R131, R135) -/

/-- Settles O25: the tick below one second, and the tick that carries. -/
theorem tickAdvancesTheCounter : Obligations.TickAdvancesTheCounter := by
  unfold Obligations.TickAdvancesTheCounter
  exact fun s => ⟨fun hbelow => congrArg _ (State.tickCounter_below hbelow),
    fun hcarry => congrArg _ (State.tickCounter_carry hcarry)⟩

/-- The state whose counter is `units` further: the fraction of a second is kept and the whole seconds are carried, modulo
2^64 (rule R135). -/
def State.advancedBy (units : Nat) (s : State) : State :=
  { s with
    ctrNsfx := (s.ctrNsfx + units) % Config.nsfxPerSec
    ctrSec := s.ctrSec + BitVec.ofNat 64 ((s.ctrNsfx + units) / Config.nsfxPerSec) }

/-- A counter in range stays as it is when nothing is added. -/
theorem State.advancedBy_zero {s : State} (h : s.ctrNsfx < Config.nsfxPerSec) : s.advancedBy 0 = s := by
  simp only [State.advancedBy, Nat.add_zero, Nat.mod_eq_of_lt h, Nat.div_eq_of_lt h, BitVec.add_zero]

/-- Advances add up: no fraction is lost between them (rules R131, R135). -/
theorem State.advancedBy_advancedBy (x y : Nat) (s : State) : (s.advancedBy x).advancedBy y = s.advancedBy (x + y) := by
  have hfraction : ((s.ctrNsfx + x) % Config.nsfxPerSec + y) % Config.nsfxPerSec =
      (s.ctrNsfx + (x + y)) % Config.nsfxPerSec := by
    rw [Nat.mod_add_mod, Nat.add_assoc]
  have hseconds : (s.ctrNsfx + x) / Config.nsfxPerSec + ((s.ctrNsfx + x) % Config.nsfxPerSec + y) / Config.nsfxPerSec =
      (s.ctrNsfx + (x + y)) / Config.nsfxPerSec := by
    simp only [Config.nsfxPerSec]
    omega
  simp only [State.advancedBy, hfraction, BitVec.add_assoc, ← BitVec.ofNat_add, hseconds]

/-- With the counter in range a tick is an advance by `INC`: a 32-bit increment carries at most once (rule R130). -/
theorem State.tickCounter_eq_advancedBy {s : State} (h : s.ctrNsfx < Config.nsfxPerSec) :
    s.tickCounter = s.advancedBy s.inc.toNat := by
  have hinc : s.inc.toNat < 4294967296 := s.inc.isLt
  obtain hbelow | hcarry := Nat.lt_or_ge (s.ctrNsfx + s.inc.toNat) Config.nsfxPerSec
  · rw [State.tickCounter_below hbelow]
    simp only [State.advancedBy, Nat.mod_eq_of_lt hbelow, Nat.div_eq_of_lt hbelow, BitVec.add_zero]
  · have honce : s.ctrNsfx + s.inc.toNat - Config.nsfxPerSec < Config.nsfxPerSec := by
      simp only [Config.nsfxPerSec] at h ⊢
      omega
    rw [State.tickCounter_carry hcarry]
    simp only [State.advancedBy, Nat.mod_eq_sub_mod hcarry, Nat.mod_eq_of_lt honce,
      Nat.div_eq_sub_div (by decide) hcarry, Nat.div_eq_of_lt honce]
    rfl

/-- A run of ticks, by induction on their number: each one advances by `INC`. -/
theorem stepN_ticks {s : State} {n : Nat} {rest : List Entry} (hctr : s.ctrNsfx < Config.nsfxPerSec)
    (hs : s.schedule = List.replicate n (.issue .tb [0xC0]) ++ rest) :
    ∃ a, stepN n s = some { s.advancedBy (n * s.inc.toNat) with schedule := rest, actor := a } := by
  induction n generalizing s with
  | zero =>
    obtain rfl : s.schedule = rest := hs
    exact ⟨s.actor, by rw [Nat.zero_mul, State.advancedBy_zero hctr]; rfl⟩
  | succ n ih =>
    have hstep := step_tick hs
    rw [State.tickCounter_eq_advancedBy (by exact hctr)] at hstep
    obtain ⟨a, hrun⟩ := ih (s := State.advancedBy s.inc.toNat { s with schedule := _, actor := .tb })
      (Nat.mod_lt _ (by decide)) rfl
    refine ⟨a, (stepN_cons hstep).trans (hrun.trans ?_)⟩
    rw [Nat.succ_mul, Nat.add_comm, ← State.advancedBy_advancedBy]
    rfl

/-- Settles O26: the state behind the run is the advance by `n * INC`. -/
theorem ticksAccumulateExactly : Obligations.TicksAccumulateExactly := by
  unfold Obligations.TicksAccumulateExactly
  intro s n rest hctr hs
  obtain ⟨a, hrun⟩ := stepN_ticks hctr hs
  exact ⟨_, hrun, rfl⟩

/-! ### The low word of the composed seconds (rules R132, R141) -/

/-- The low word is the seconds modulo 2^32. -/
theorem extract_lo_eq_setWidth (w : DWord) : w.extractLsb' 0 32 = w.setWidth 32 :=
  (BitVec.setWidth_eq_extractLsb' (by decide)).symm

/-- The low words and the carry make the low word of the sum. -/
theorem State.curSec_lo (s : State) : s.curSec.extractLsb' 0 32 =
    s.ctrSec.extractLsb' 0 32 + s.offSec.extractLsb' 0 32 + BitVec.ofNat 32 s.nsCarry := by
  have hle : 32 ≤ 64 := by decide
  simp only [State.curSec, extract_lo_eq_setWidth, BitVec.setWidth_add _ _ hle, BitVec.setWidth_ofNat_of_le hle]

/-- Settles O27: each clause reads the low word off `State.curSec_lo`; the carry is that of the same nanoseconds. -/
theorem lowSecondsAreExactModulo32 : Obligations.LowSecondsAreExactModulo32 := by
  unfold Obligations.LowSecondsAreExactModulo32
  refine ⟨fun s _ => s.curSec_lo, fun s t _ hns hctr hctrLo hoffLo => ?_, fun s t x hns hctr hsec hzero hoff => ?_⟩
  · rw [t.curSec_lo, s.curSec_lo, (State.curNs_congr hctr hns).1, hctrLo, hoffLo]
  · have hlow : t.offSec.extractLsb' 0 32 = BitVec.ofInt 32 x := by
      rw [hoff, extract_lo_eq_setWidth, BitVec.setWidth_setWidth_of_le _ (by decide), BitVec.setWidth_eq, low32]
    rw [t.curSec_lo, s.curSec_lo, (State.curNs_congr hctr hns).1, hsec, hlow, hzero]
    simp [add_right_comm]

/-! ### `write_offset` (rules R139, R140) -/

/-- A write of OFFSET_SEC_HI stages the high word, whoever makes it (rule R107). -/
theorem exec_wrOffsetSecHi_staged {s t : State} {d : Word} (h : exec (.wrOffsetSecHi d) s = .next t) :
    t.stgSecHi = d := by
  cases h
  simp

/-- A write of OFFSET_SEC_LO stages the low word and keeps the high one, whoever makes it (rule R105). -/
theorem exec_wrOffsetSecLo_staged {s t : State} {d : Word} (h : exec (.wrOffsetSecLo d) s = .next t) :
    t.stgSecLo = d ∧ t.stgSecHi = s.stgSecHi := by
  cases h
  simp

/-- A write of OFFSET_NS commits the offset and keeps the staged words, whoever makes it (rule R103). -/
theorem exec_wrOffsetNs_committed {s t : State} {d : Word} (h : exec (.wrOffsetNs d) s = .next t) :
    t.offNs = d ∧ t.offSec = s.stgSecHi ++ s.stgSecLo ∧ t.stgSecLo = s.stgSecLo ∧ t.stgSecHi = s.stgSecHi := by
  cases h
  simp

/-- Settles O23: the last write joins the two words that the others staged, of which the high one is 0. -/
theorem writeOffsetSequenceSetsTheOffset : Obligations.WriteOffsetSequenceSetsTheOffset := by
  unfold Obligations.WriteOffsetSequenceSetsTheOffset
  rintro s1 s2 s3 t1 t2 t3 tv ⟨hns0, hns⟩ hhi hkeepHi hlo hkeepHi' hkeepLo hcommit
  obtain ⟨hstagedLo, hstillHi⟩ := exec_wrOffsetSecLo_staged hlo
  obtain ⟨hoffNs, hoffSec, hkeptLo, hkeptHi⟩ := exec_wrOffsetNs_committed hcommit
  have hword : s3.stgSecLo = low32 tv.sec := hkeepLo.trans hstagedLo
  have hzero : s3.stgSecHi = 0#32 :=
    ((hkeepHi'.trans hstillHi).trans hkeepHi).trans (exec_wrOffsetSecHi_staged hhi)
  rw [hoffSec, hoffNs, hkeptLo, hkeptHi, hword, hzero]
  refine ⟨?_, toNat_ofInt_targetNs hns0 hns, (extract_lo_append _ _).symm, rfl⟩
  rw [toNat_zero_append, low32, BitVec.toNat_ofInt]
  omega

/-! ### The nanoseconds that the core writes (rules R133, R138) -/

/-- A sequence writes OFFSET_NS twice: the zero of `set_time`'s clearing, and the nanoseconds of the offset it has computed
(rules R173, R176). -/
theorem Ctx.nextInstr_wrOffsetNs {c : Ctx} {p : Params} {d : Word} (h : c.nextInstr p = some (.wrOffsetNs d)) :
    d = 0 ∨ c.holdsOffset = true ∧ d = low32 c.tv.ns := by
  unfold Ctx.nextInstr at h
  unfold Ctx.holdsOffset
  repeat' split at h
  all_goals simp_all

/-- Settles O41: zero is in range, and so by the invariant are the nanoseconds of an offset still to be written. -/
theorem coreWritesOffsetNsInRange : Obligations.CoreWritesOffsetNsInRange := by
  unfold Obligations.CoreWritesOffsetNsInRange
  intro s k c d hinv hc hnext
  obtain rfl | ⟨hholds, rfl⟩ := Ctx.nextInstr_wrOffsetNs hnext
  · simp
  · obtain ⟨h0, hlt⟩ := (hinv.legal k c hc).2 hholds
    have hword : ((low32 c.tv.ns).toNat : Int) = c.tv.ns := toNat_ofInt_targetNs h0 hlt
    exact Int.ofNat_lt.mp (hword.trans_lt hlt)

end Sys2Proof.Machine
end

section
/-! The frequency trim: the increment around `NOMINAL`, its bounds, and the one step that writes it; the obligations of
42_frequency_controller.md settled from these. -/

namespace Sys2Proof.Machine

/-! ### The increment of a trim (rules R160, R161) -/

@[simp] theorem freqDelta_zero (nominal : Nat) : freqDelta nominal 0 = 0 := by simp [freqDelta]

@[simp] theorem freqDelta_neg (nominal : Nat) (ppb : Int) : freqDelta nominal (-ppb) = freqDelta nominal ppb := by
  simp [freqDelta]

/-- A trim within the advertised range moves the increment by less than `NOMINAL` (rule R161 (d)). -/
theorem freqDelta_lt {nominal : Nat} {ppb : Int} (hpos : 0 < nominal) (hppb : ppb.natAbs ≤ Config.maxAdjPpb) :
    freqDelta nominal ppb < nominal :=
  Nat.div_lt_of_lt_mul <| calc
    nominal * ppb.natAbs < nominal * Config.nsecPerSec := Nat.mul_lt_mul_of_pos_left (Nat.lt_succ_of_le hppb) hpos
    _ = Config.nsecPerSec * nominal := Nat.mul_comm _ _

theorem freqIncrement_of_neg (nominal : Nat) {ppb : Int} (h : ppb < 0) :
    freqIncrement nominal ppb = nominal - freqDelta nominal ppb := if_pos h

theorem freqIncrement_of_nonneg (nominal : Nat) {ppb : Int} (h : 0 ≤ ppb) :
    freqIncrement nominal ppb = nominal + freqDelta nominal ppb := if_neg h.not_gt

@[simp] theorem freqIncrement_zero (nominal : Nat) : freqIncrement nominal 0 = nominal := by
  simp [freqIncrement_of_nonneg]

/-- Opposite trims are symmetric around `NOMINAL` (rule R161 (b)). -/
theorem freqIncrement_symmetric (nominal : Nat) (ppb : Int) :
    freqIncrement nominal ppb - nominal = -(freqIncrement nominal (-ppb) - nominal) := by
  obtain hneg | rfl | hpos := lt_trichotomy ppb 0
  · rw [freqIncrement_of_neg _ hneg, freqIncrement_of_nonneg _ (Int.neg_nonneg_of_nonpos hneg.le), freqDelta_neg]
    omega
  · simp
  · rw [freqIncrement_of_nonneg _ hpos.le, freqIncrement_of_neg _ (Int.neg_neg_of_pos hpos), freqDelta_neg]
    omega

/-- Within the advertised range the increment stays strictly between 0 and `2 * NOMINAL` (rule R161 (d)). -/
theorem freqIncrement_bounds {nominal : Nat} {ppb : Int} (hpos : 0 < nominal) (hppb : ppb.natAbs ≤ Config.maxAdjPpb) :
    0 < freqIncrement nominal ppb ∧ freqIncrement nominal ppb < 2 * nominal := by
  have hdelta := freqDelta_lt hpos hppb
  obtain hneg | hnonneg := lt_or_ge ppb 0
  · rw [freqIncrement_of_neg _ hneg]
    omega
  · rw [freqIncrement_of_nonneg _ hnonneg]
    omega

/-- An integer that fits 32 bits is the value of its `low32` (rule R13). -/
theorem low32_toNat {x : Int} (h0 : 0 ≤ x) (h : x < 4294967296) : ((low32 x).toNat : Int) = x := by
  rw [low32, BitVec.toNat_ofInt]
  omega

theorem Params.nominal_pos {p : Params} (hp : p.Legal) : 0 < p.nominal :=
  Nat.mul_pos hp.1 (by decide)

/-- `2 * NOMINAL` is at most 2^32 for a clock period of at most 2048 ns (rule R161 (d)). -/
theorem Params.two_nominal_le {p : Params} (hclk : p.clkPeriod ≤ 2048) : 2 * p.nominal ≤ 4294967296 :=
  Nat.mul_le_mul_left 2 (Nat.mul_le_mul_right Config.fractionOfOneNsec hclk)

/-- Settles O29: the trim is less than `NOMINAL`, on either side of it, and twice `NOMINAL` is at most 2^32. -/
theorem trimIsSymmetricAndBounded : Obligations.TrimIsSymmetricAndBounded := by
  unfold Obligations.TrimIsSymmetricAndBounded
  intro p ppb hlegal
  refine ⟨freqIncrement_zero _, freqIncrement_symmetric _ _, fun hppb => ?_⟩
  obtain ⟨hpos, hlt⟩ := freqIncrement_bounds (Params.nominal_pos hlegal) hppb
  refine ⟨hpos, hlt, fun hclk => ?_⟩
  have hfits : freqIncrement p.nominal ppb < 4294967296 := hlt.trans_le (mod_cast Params.two_nominal_le hclk)
  exact ⟨hfits, low32_toNat hpos.le hfits⟩

/-! ### `ADJ_FREQ` (rules R160, R162) -/

/-- An idle context that returns stays idle. -/
theorem Ctx.ret_idle {c : Ctx} (r : Result) (h : c.op = .idle) : c.ret r = { c with sp := 0, result := some r } := by
  rw [Ctx.ret, ← h]

/-- An idle caller's `ADJ_FREQ` writes the trimmed increment, returns `Ok`, and takes no guard. -/
theorem exec_adjFreq_idle {s : State} {k : Nat} {c : Ctx} (ppb : Word) (h : s.Acting k c) (hidle : c.op = .idle) :
    exec (.adjFreq ppb) s = .next { s with
      inc := low32 (freqIncrement s.params.nominal ppb.toInt)
      callers := s.callers.set k { c with sp := 0, result := some .ok } } := by
  rw [← Ctx.ret_idle .ok hidle]
  exact (State.hostOp_idle _ h hidle).trans (congrArg _ (State.returnTo_caller (s := s.writeInc _) .ok h.2))

/-- Settles O28: `exec_adjFreq_idle`, with the trim in the statement's words. -/
theorem adjustFrequencyWritesTheTrim : Obligations.AdjustFrequencyWritesTheTrim := by
  unfold Obligations.AdjustFrequencyWritesTheTrim
  rintro s k c ppb _ hact hidle rfl
  exact exec_adjFreq_idle ppb hact hidle

end Sys2Proof.Machine
end

section
/-! The time controller: that no guarded operation changes the offset beside a `get_time`, how the guarded operations
start, and what `get_time`, `set_time` and the fine path of `adjust_time` leave when they run alone; the obligations of
43_time_controller.md settled from these. -/

namespace Sys2Proof.Machine

/-! ### The offset while a caller is inside `get_time` (rules R171, R180, R245) -/

/-- A step that only callers have is fetched for a caller of the machine, which is idle or has that step next (rules R9,
R37). -/
theorem State.offer_callers_step {s u : State} {a : Agent} {i : Instr} (h : s.offer a i = .run i u)
    (hcallers : a.has i = true → a.isCaller = true) :
    ∃ k c, u.actor = .caller k ∧ s.callers[k]? = some c ∧ (c.op = .idle ∨ c.nextInstr s.params = some i) := by
  obtain ⟨-, rfl, hhas, hagent, -, horder⟩ := State.offer_run h
  cases a with
  | caller k =>
    cases hc : s.callers[k]? with
    | none => simp [State.hasAgent, hc] at hagent
    | some c =>
      simp only [State.breaksOrder, hc] at horder
      refine ⟨k, c, rfl, hc, ?_⟩
      by_cases hidle : c.op = .idle
      · exact .inl hidle
      · exact .inr (by simpa [hidle] using horder)
  | tb | ps | ih | host => cases hcallers hhas

/-- A caller with a write next is inside its operation: the first step is `LOCK_ACQ` (rule R171). -/
theorem Ctx.inside_of_nextInstr {c : Ctx} {p : Params} {i : Instr} (hn : c.nextInstr p = some i) (hacq : i ≠ .lockAcq) :
    c.Inside := by
  have hop : c.op ≠ .idle := fun hidle => by simp [Ctx.nextInstr, hidle] at hn
  refine ⟨hop, Nat.one_le_iff_ne_zero.mpr fun hfirst => hacq ?_⟩
  exact Option.some.inj (hn.symm.trans (Ctx.nextInstr_lockAcq.mpr ⟨hop, hfirst⟩))

/-- `get_time` writes no register (rule R172). -/
theorem Ctx.nextInstr_getTime_ne_write {c : Ctx} {p : Params} (hop : c.op = .getTime) (d : Word) :
    c.nextInstr p ≠ some (.wrOffsetNs d) := by
  simp only [Ctx.nextInstr, hop]
  split <;> simp

/-- A step changes the active offset only as a write of OFFSET_NS or a power cycle (rules R43, R103). -/
theorem offset_changes_by_write_or_powerCycle {s t : State} (hstep : step s = .next t)
    (hchanged : t.offNs ≠ s.offNs ∨ t.offSec ≠ s.offSec) :
    (∃ rest, s.schedule = .powerCycle :: rest) ∨ ∃ d u, s.fetch = .run (.wrOffsetNs d) u := by
  obtain ⟨i, a, rest, hf, he⟩ | ⟨k, rest, -, rfl⟩ | ⟨rest, -, rfl⟩ | ⟨rest, hs, -⟩ := step_effect hstep
  · obtain ⟨d, rfl⟩ := he.changedOnlyBy.1.of_scheduled.offset hchanged
    exact .inr ⟨d, _, hf⟩
  · simp at hchanged
  · simp at hchanged
  · exact .inl ⟨rest, hs⟩

/-- Settles O38: the writer of OFFSET_NS is a caller; with an operation in progress it would be inside it, so hold the
guard that by the invariant the caller inside `get_time` holds, but `get_time` has no such write. -/
theorem getTimeSeesNoTornOffset : Obligations.GetTimeSeesNoTornOffset := by
  unfold Obligations.GetTimeSeesNoTornOffset
  intro s t j c hinv hc hget hinside hstep hchanged
  obtain hcycle | ⟨d, u, hf⟩ := offset_changes_by_write_or_powerCycle hstep hchanged
  · exact .inl hcycle
  obtain ⟨e, rest, a, -, ho⟩ := State.fetch_run hf
  obtain ⟨k, c', hactor, hc', hidle | hnext⟩ := State.offer_callers_step ho id
  · exact .inr ⟨d, u, k, c', hf, hactor, hc', hidle⟩
  · have hwriter : s.lock = some k := hinv.guard k c' hc' (Ctx.inside_of_nextInstr hnext nofun)
    cases (hinv.guard j c hc hinside).symm.trans hwriter
    cases hc.symm.trans hc'
    exact absurd hnext (Ctx.nextInstr_getTime_ne_write hget d)

/-! ### The start of a guarded operation (rules R171 to R175) -/

/-- A guarded operation that starts with the guard held waits for it at its first step (rule R171, log 3). -/
theorem State.startGuarded_held {s : State} {k j : Nat} {c : Ctx} (op : Op) (hc : s.callers[k]? = some c)
    (hheld : s.lock = some j) :
    s.startGuarded k op = { s with callers := s.callers.set k { c with op := op, sp := 0 } } := by
  rw [State.startGuarded_acting op hc, hheld]

/-- Settles O31: the key of each guarded operation starts it, which takes the free guard or waits for the held one. -/
theorem guardedOperationsStartWithTheGuard : Obligations.GuardedOperationsStartWithTheGuard := by
  unfold Obligations.GuardedOperationsStartWithTheGuard
  intro s k c i op hact hidle hi
  have hstart : op ≠ .idle ∧ exec i s = .next (s.startGuarded k op) := by
    obtain ⟨rfl, rfl⟩ | ⟨target, hsec0, hsec, ⟨hns0, hns⟩, rfl, rfl⟩ | ⟨d, rfl, rfl⟩ := hi
    · exact ⟨nofun, State.hostOp_idle _ hact hidle⟩
    · have hrange : target.inTargetRange = true := inTargetRange_iff.mpr ⟨⟨hsec0, hsec⟩, hns0, hns⟩
      exact ⟨nofun, (if_pos hrange).trans (State.hostOp_idle _ hact hidle)⟩
    · exact ⟨nofun, State.hostOp_idle _ hact hidle⟩
  obtain ⟨hop, hexec⟩ := hstart
  refine ⟨fun hfree => ?_, fun j hheld => ?_⟩
  · rw [hexec, State.startGuarded_free hact.2 hop hfree]
  · rw [hexec, State.startGuarded_held op hact.2 hheld]

/-- An idle caller starts a guarded operation with the guard free (rules R171 to R175, log 4). -/
theorem step_start_free {s : State} {k : Nat} {c : Ctx} {i : Instr} {op : Op} {code tail : List Byte}
    {rest : List Entry} (hs : s.schedule = .issue (.caller k) code :: rest) (hdecode : decode code = .ok (i, tail))
    (hhas : Agent.has (.caller k) i = true) (hexec : ∀ u, exec i u = u.hostOp fun k => u.startGuarded k op)
    (hop : op ≠ .idle) (ha : s.attached = true) (hc : s.callers[k]? = some c) (hidle : c.op = .idle)
    (hfree : s.lock = none) :
    step s = .next { s with
      schedule := rest
      actor := .caller k
      lock := some k
      callers := s.callers.set k { c with op := op, sp := 1 } } := by
  rw [step_issue hs hdecode hhas (State.hasAgent_caller hc) (.inl ha) (State.breaksOrder_idle _ hc hidle), hexec,
    State.hostOp_idle (s := { s with schedule := rest, actor := .caller k }) _ ⟨rfl, hc⟩ hidle,
    State.startGuarded_free (s := { s with schedule := rest, actor := .caller k }) hc hop hfree]

/-! ### The two reads of the current time (rules R132, R133, R136)

As in `Coarse` above, in a chain of steps the facts about a step's state are given by tactic blocks, which are elaborated
last. -/

/-- The word that CUR_SEC_LO gives right behind a read of CUR_NS, which may have taken a draw. -/
def State.curSecLoBehindNs (s : State) : Word :=
  State.regValue .curSecLo { s with draws := s.draws + (s.regDraws .curNs).toNat }

/-- While the composition is defined the two reads give the words of one composed time, without a draw (rule R132). -/
theorem State.curReads_defined {s : State} (h : s.curDefined = true) :
    s.regDraws .curNs = false ∧ s.regValue .curNs = BitVec.ofNat 32 s.curNs ∧
      s.curSecLoBehindNs = s.curSec.extractLsb' 0 32 := by
  obtain ⟨⟨hdraws, hns⟩, -⟩ := State.regValue_cur h
  obtain ⟨-, ⟨-, hlo⟩, -⟩ := State.regValue_cur (s := { s with draws := s.draws + (s.regDraws .curNs).toNat }) h
  exact ⟨hdraws, hns, hlo⟩

/-- While the composition is not defined the two reads give two draws (rule R133). -/
theorem State.curReads_undefined {s : State} (h : s.curDefined = false) :
    s.regDraws .curNs = true ∧ s.regValue .curNs = Config.freeWord s.draws ∧
      s.curSecLoBehindNs = Config.freeWord (s.draws + 1) := by
  have hdraws : s.regDraws .curNs = true := by simp [State.regDraws, h]
  refine ⟨hdraws, by simp [State.regValue, State.draw, h], ?_⟩
  rw [State.curSecLoBehindNs, hdraws]
  exact if_neg (Bool.eq_false_iff.mp h)

/-- A scheduled caller takes the two reads of its sequence (rules R172, R173): `c₁` and `c₂` are its contexts behind
them. -/
theorem stepN_go_readCur {s : State} {k : Nat} {c c₁ c₂ : Ctx} {rest : List Entry}
    (hs : s.schedule = .go k :: .go k :: rest) (ha : s.attached = true) (hc : s.callers[k]? = some c)
    (hnextNs : c.nextInstr s.params = some .rdCurNs)
    (hc₁ : { c.advance (s.regValue .curNs) with rdata := s.regValue .curNs } = c₁)
    (hnextSec : c₁.nextInstr s.params = some .rdCurSecLo)
    (hc₂ : { c₁.advance s.curSecLoBehindNs with rdata := s.curSecLoBehindNs } = c₂) :
    stepN 2 s = some { s with
      schedule := rest
      actor := .caller k
      draws := s.draws + 2 * (s.regDraws .curNs).toNat
      callers := s.callers.set k c₂ } := by
  refine (stepN_cons (step_go_read (r := .curNs) hs ha hc hnextNs)).trans ?_
  rw [hc₁]
  refine (stepN_cons (step_go_read (r := .curSecLo) (by rfl) (by exact ha) (by exact getElem?_set_acting _ hc)
    (by exact hnextSec))).trans ?_
  simp only [stepN, List.set_set, two_mul, ← add_assoc, ← hc₂]
  rfl

/-- The context behind the two reads of the current time, of `sec` and `ns`, at step `sp` with the time value `tv` computed
from them (rules R136, R172, R173). -/
def Ctx.behindCurReads (op : Op) (sp : Nat) (tv : TV) (sec ns : Word) (c : Ctx) : Ctx :=
  { c with op := op, sp := sp, rNs := ns, rSec := sec, rdata := sec, tv := tv }

/-! ### `get_time` (rule R172) -/

/-- `get_time` alone, from an idle caller with the guard free (rule R172, log 4). -/
theorem stepN_getTime {s : State} {k : Nat} {c : Ctx} {rest : List Entry} {tv : TV} (ha : s.attached = true)
    (hc : s.callers[k]? = some c) (hidle : c.op = .idle) (hfree : s.lock = none)
    (htv : tvOfWords s.curSecLoBehindNs (s.regValue .curNs) = tv)
    (hs : s.schedule = .issue (.caller k) [0x80] :: .go k :: .go k :: .go k :: rest) :
    stepN 4 s = some { s with
      schedule := rest
      actor := .caller k
      draws := s.draws + 2 * (s.regDraws .curNs).toNat
      callers := s.callers.set k
        ((c.behindCurReads .getTime 3 tv s.curSecLoBehindNs (s.regValue .curNs)).ret (.okTime tv)) } := by
  subst htv
  refine (stepN_cons (step_start_free (i := .getTime) (op := .getTime) (tail := []) hs (by rfl) (by rfl) (fun _ => by rfl)
    nofun ha hc hidle hfree)).trans ?_
  refine (stepN_add (m := 2) (n := 1) (stepN_go_readCur (rest := .go k :: rest) (by rfl) (by exact ha)
    (by exact getElem?_set_acting _ hc) (by rfl) (by rfl) (by rfl) (by rfl))).trans ?_
  refine (stepN_cons (step_go_lockRel (by rfl) (by exact ha) (by exact getElem?_set_acting _ (getElem?_set_acting _ hc))
    (by rfl) (by rfl))).trans ?_
  simp only [stepN, List.set_set, hfree]
  rfl

/-- The words of a composed time in range are its nanoseconds and its seconds modulo 2^32 (rule R136). -/
theorem tvOfWords_cur {s : State} (hlt : s.curNs < 1000000000) :
    tvOfWords (s.curSec.extractLsb' 0 32) (BitVec.ofNat 32 s.curNs) =
      ⟨((s.curSec.toNat % 4294967296 : Nat) : Int), (s.curNs : Int)⟩ := by
  have hns : s.curNs % 4294967296 = s.curNs := Nat.mod_eq_of_lt (by omega)
  simp [tvOfWords, extract_lo_eq_setWidth, hns]

/-- Settles O33: the run returns the time value of the two words read, which are those of the composed time while it is
defined and two draws while it is not. -/
theorem getTimeReturnsTheComposedTime : Obligations.GetTimeReturnsTheComposedTime := by
  unfold Obligations.GetTimeReturnsTheComposedTime
  intro s k c rest ha hc hidle hfree hs
  refine ⟨_, _, stepN_getTime ha hc hidle hfree rfl hs, rfl, rfl, fun hctr hoff => ?_, fun hoff => ?_⟩
  · obtain ⟨hdraws, hns, hsec⟩ := State.curReads_defined (State.curDefined_iff.mpr hoff)
    rw [hdraws, hns, hsec, tvOfWords_cur (State.curNs_lt hctr hoff)]
    exact ⟨rfl, rfl⟩
  · have hundefined : s.curDefined = false := decide_eq_false hoff.not_gt
    obtain ⟨hdraws, hns, hsec⟩ := State.curReads_undefined hundefined
    rw [hdraws, hns, hsec]
    exact ⟨rfl, rfl⟩

/-! ### `set_time` (rules R138, R139, R173) -/

/-- The offset registers behind `write_offset` with the words `sec` and `ns` (rule R139). -/
def State.withOffset (sec ns : Word) (s : State) : State :=
  { s with offNs := ns, offSec := 0#32 ++ sec, stgSecLo := sec, stgSecHi := 0 }

/-- A scheduled caller takes the three writes of `write_offset` of its sequence (rule R139): `c₁`, `c₂` and `c₃` are its
contexts behind them. -/
theorem stepN_go_writeOffset {s : State} {k : Nat} {c c₁ c₂ c₃ : Ctx} {sec ns : Word} {rest : List Entry}
    (hs : s.schedule = .go k :: .go k :: .go k :: rest) (ha : s.attached = true) (hc : s.callers[k]? = some c)
    (hnextHi : c.nextInstr s.params = some (.wrOffsetSecHi 0)) (hc₁ : c.advance 0 = c₁)
    (hnextLo : c₁.nextInstr s.params = some (.wrOffsetSecLo sec)) (hc₂ : c₁.advance 0 = c₂)
    (hnextNs : c₂.nextInstr s.params = some (.wrOffsetNs ns)) (hc₃ : c₂.advance 0 = c₃) :
    stepN 3 s = some { s.withOffset sec ns with
      schedule := rest
      actor := .caller k
      callers := s.callers.set k c₃ } := by
  subst hc₁ hc₂ hc₃
  refine (stepN_cons (step_go_wrOffsetSecHi hs ha hc hnextHi)).trans ?_
  refine (stepN_cons (step_go_wrOffsetSecLo (by rfl) (by exact ha) (by exact getElem?_set_acting _ hc)
    (by exact hnextLo))).trans ?_
  refine (stepN_cons (step_go_wrOffsetNs (by rfl) (by exact ha)
    (by exact getElem?_set_acting _ (getElem?_set_acting _ hc)) (by exact hnextNs))).trans ?_
  simp only [stepN, List.set_set]
  rfl

section SetTime

variable {s : State} {k : Nat} {c : Ctx} {target : TV} {rest : List Entry} (ha : s.attached = true)
  (hc : s.callers[k]? = some c) (hop : c.op = .setTime target)
include ha hc hop

/-- The first three writes of `set_time` clear the offset. -/
theorem stepN_setTime_clears (hsp : c.sp = 1) (hs : s.schedule = .go k :: .go k :: .go k :: rest) :
    stepN 3 s = some { s.withOffset 0 0 with
      schedule := rest
      actor := .caller k
      callers := s.callers.set k { c with sp := 4 } } := by
  apply stepN_go_writeOffset (c₁ := { c with sp := 2 }) (c₂ := { c with sp := 3 }) hs ha hc <;>
    simp [Ctx.nextInstr, Ctx.advance, hop, hsp]

/-- The two reads of `set_time` give it the time from which it computes the delta. -/
theorem stepN_setTime_reads (hsp : c.sp = 4) (hs : s.schedule = .go k :: .go k :: rest) :
    stepN 2 s = some { s with
      schedule := rest
      actor := .caller k
      draws := s.draws + 2 * (s.regDraws .curNs).toNat
      callers := s.callers.set k (c.behindCurReads (.setTime target) 6
        (setTimeDelta target (tvOfWords s.curSecLoBehindNs (s.regValue .curNs))) s.curSecLoBehindNs
        (s.regValue .curNs)) } := by
  apply stepN_go_readCur (c₁ := { c with sp := 5, rNs := s.regValue .curNs, rdata := s.regValue .curNs }) hs ha hc <;>
    simp [Ctx.nextInstr, Ctx.advance, Ctx.behindCurReads, hop, hsp]

/-- The last three writes of `set_time` set the offset to the delta, and its last step returns. -/
theorem stepN_setTime_writes (hsp : c.sp = 6) (hheld : s.lock = some k)
    (hs : s.schedule = .go k :: .go k :: .go k :: .go k :: rest) :
    stepN 4 s = some { s.withOffset (low32 c.tv.sec) (low32 c.tv.ns) with
      schedule := rest
      actor := .caller k
      lock := none
      callers := s.callers.set k (c.ret .ok) } := by
  have hwrites : stepN 3 s = some { s.withOffset (low32 c.tv.sec) (low32 c.tv.ns) with
      schedule := .go k :: rest
      actor := .caller k
      callers := s.callers.set k { c with sp := 9 } } := by
    apply stepN_go_writeOffset (c₁ := { c with sp := 7 }) (c₂ := { c with sp := 8 }) hs ha hc <;>
      simp [Ctx.nextInstr, Ctx.advance, hop, hsp]
  refine (stepN_add (n := 1) hwrites).trans ?_
  refine (stepN_cons (step_go_lockRel (by rfl) (by exact ha) (by exact getElem?_set_acting _ hc) ?_
    (by exact hheld))).trans ?_
  · simp [Ctx.nextInstr, hop]
  · simp [stepN, Ctx.advance, Ctx.ret, hop]

end SetTime

/-- `set_time` alone, from an idle caller with the guard free: it reads the time with the offset cleared, and writes the
delta that it computes from that (rule R173, log 4). -/
theorem stepN_setTime {s : State} {k : Nat} {c : Ctx} {target tv : TV} {sec ns : Word} {rest : List Entry}
    (hrange : target.inTargetRange = true) (ha : s.attached = true) (hc : s.callers[k]? = some c) (hidle : c.op = .idle)
    (hfree : s.lock = none) (hns : (s.withOffset 0 0).regValue .curNs = ns)
    (hsec : (s.withOffset 0 0).curSecLoBehindNs = sec) (htv : setTimeDelta target (tvOfWords sec ns) = tv)
    (hs : s.schedule = issueOf (.caller k) (.setTime target) :: (List.replicate 9 (.go k) ++ rest)) :
    stepN 10 s = some { s.withOffset (low32 tv.sec) (low32 tv.ns) with
      schedule := rest
      actor := .caller k
      callers := s.callers.set k ((c.behindCurReads (.setTime target) 6 tv sec ns).ret .ok) } := by
  subst hns hsec htv
  have hdecode : decode (encode (.setTime target)) = .ok (.setTime target, []) := by
    simpa using decode_encode_setTime hrange []
  have hexec (u : State) : exec (.setTime target) u = u.hostOp fun k => u.startGuarded k (.setTime target) :=
    if_pos hrange
  refine (stepN_cons (step_start_free hs hdecode (by rfl) hexec nofun ha hc hidle hfree)).trans ?_
  refine (stepN_add (m := 3) (n := 6) (stepN_setTime_clears (rest := List.replicate 6 (.go k) ++ rest)
    (by exact ha) (by exact getElem?_set_acting _ hc) (by rfl) (by rfl) (by rfl))).trans ?_
  refine (stepN_add (m := 2) (n := 4) (stepN_setTime_reads (rest := List.replicate 4 (.go k) ++ rest)
    (by exact ha) (by exact getElem?_set_acting _ (getElem?_set_acting _ hc)) (by rfl) (by rfl) (by rfl))).trans ?_
  refine (stepN_setTime_writes (rest := rest) (by exact ha)
    (by exact getElem?_set_acting _ (getElem?_set_acting _ (getElem?_set_acting _ hc))) (by rfl) (by rfl) (by rfl)
    (by rfl)).trans ?_
  simp only [State.withOffset, List.set_set, hfree]
  rfl

/-! ### What `set_time` leaves (rules R138, R173, R174, R179) -/

/-- The counter's own time, its seconds cut to 32 bits: `raw` of rule R173. -/
def State.rawTime (s : State) : TV := ⟨((s.ctrSec.toNat % 4294967296 : Nat) : Int), ((s.ctrNsfx / 1048576 : Nat) : Int)⟩

/-- With the offset (0, 0) the composed time is the counter's (rule R132). -/
theorem State.cur_of_zero_offset {s : State} (hctr : s.ctrNsfx < 1000000000 * 1048576) (hns : s.offNs = 0)
    (hsec : s.offSec = 0) : s.curNs = s.ctrNsfx / 1048576 ∧ s.curSec = s.ctrSec := by
  have hsum : s.nsSum = s.ctrNsfx / 1048576 := by simp [State.nsSum, hns]
  obtain ⟨hcurNs, hcurSec⟩ := State.cur_below (s := s) (by omega)
  exact ⟨hcurNs.trans hsum, by simp [hcurSec, hsec]⟩

/-- The composed time is the sum of counter and offset, modulo 2^64 seconds (rule R132). -/
theorem State.cur_total (s : State) :
    ((s.curSec.toNat * 1000000000 + s.curNs : Nat) : Int) % (18446744073709551616 * 1000000000) =
      (((s.ctrSec.toNat + s.offSec.toNat) * 1000000000 + s.nsSum : Nat) : Int) % (18446744073709551616 * 1000000000) := by
  obtain hlt | hle := Nat.lt_or_ge s.nsSum 1000000000
  · obtain ⟨hns, hsec⟩ := State.cur_below hlt
    rw [hns, hsec, BitVec.toNat_add]
    omega
  · obtain ⟨hns, hsec⟩ := State.cur_carry hle
    have hone : (1 : DWord).toNat = 1 := rfl
    rw [hns, hsec, BitVec.toNat_add, BitVec.toNat_add, hone]
    omega

/-- The time that `set_time` reads with the offset cleared is the counter's. -/
theorem State.tvOfWords_cleared {s : State} (hctr : s.ctrNsfx < 1000000000 * 1048576) :
    tvOfWords (s.withOffset 0 0).curSecLoBehindNs ((s.withOffset 0 0).regValue .curNs) = s.rawTime := by
  obtain ⟨-, hns, hsec⟩ := State.curReads_defined (s := s.withOffset 0 0) rfl
  obtain ⟨hcurNs, hcurSec⟩ := State.cur_of_zero_offset (s := s.withOffset 0 0) hctr rfl rfl
  rw [hns, hsec, tvOfWords_cur (State.curNs_lt (s := s.withOffset 0 0) hctr Nat.ofNat_pos), hcurNs, hcurSec]
  rfl

/-- With a target a second or more ahead the delta is the whole difference (rule R174 (b)). -/
theorem setTimeDelta_of_ahead {target raw : TV} (h : tvTotal raw + 1000000000 ≤ tvTotal target) :
    setTimeDelta target raw = tvSub target raw := by
  have hpos : ¬ (tvSub target raw).sec ≤ 0 := by
    simp only [tvSub, tvNorm, Config.nsecPerSec]
    omega
  exact if_neg hpos

/-- With a target less than a second ahead, or behind, the delta is zero (rule R174 (a)). -/
theorem setTimeDelta_of_not_ahead {target raw : TV} (h : tvTotal target < tvTotal raw + 1000000000) :
    setTimeDelta target raw = ⟨0, 0⟩ := by
  have hnot : (tvSub target raw).sec ≤ 0 := by
    simp only [tvSub, tvNorm, Config.nsecPerSec]
    omega
  exact if_pos hnot

/-- The total of a difference is the difference of the totals (rule R16). -/
theorem tvTotal_tvSub (a b : TV) : tvTotal (tvSub a b) = tvTotal a - tvTotal b := Int.ediv_mul_add_emod _ _

/-- `set_time` alone leaves the delta to the counter's own time as the offset, and returns `Ok` (rule R173). -/
theorem stepN_setTime_delta {s : State} {k : Nat} {c : Ctx} {target tv : TV} {rest : List Entry}
    (hrange : target.inTargetRange = true) (ha : s.attached = true) (hc : s.callers[k]? = some c) (hidle : c.op = .idle)
    (hfree : s.lock = none) (hctr : s.ctrNsfx < 1000000000 * 1048576) (htv : setTimeDelta target s.rawTime = tv)
    (hs : s.schedule = issueOf (.caller k) (.setTime target) :: (List.replicate 9 (.go k) ++ rest)) :
    ∃ c', c'.op = .idle ∧ c'.result = some .ok ∧
      stepN 10 s = some { s.withOffset (low32 tv.sec) (low32 tv.ns) with
        schedule := rest
        actor := .caller k
        callers := s.callers.set k c' } := by
  rw [← State.tvOfWords_cleared hctr] at htv
  exact ⟨_, rfl, rfl, stepN_setTime hrange ha hc hidle hfree rfl rfl htv hs⟩

/-- Seconds whose high word is 0 are their low word, zero-extended. -/
theorem zero_append_eq_setWidth (w : Word) : (0#32 ++ w : DWord) = w.setWidth 64 :=
  BitVec.eq_of_toNat_eq <| (toNat_zero_append w).trans (BitVec.toNat_setWidth_of_le (by decide)).symm

/-- Settles O34: the run writes the words of the delta, those of (0, 0) when it is clamped. -/
theorem setTimeWritesTheClampedDelta : Obligations.SetTimeWritesTheClampedDelta := by
  unfold Obligations.SetTimeWritesTheClampedDelta
  rintro s k c target d rest ha hc hidle hfree hctr hsec0 hsec ⟨hns0, hns⟩ hd hs
  have hrange : target.inTargetRange = true := inTargetRange_iff.mpr ⟨⟨hsec0, hsec⟩, hns0, hns⟩
  have hdelta : setTimeDelta target s.rawTime = if d.sec ≤ 0 then ⟨0, 0⟩ else d := by rw [hd]; rfl
  obtain ⟨c', hop, hresult, hrun⟩ := stepN_setTime_delta hrange ha hc hidle hfree hctr hdelta hs
  refine ⟨_, c', hrun, ?_, hop, hresult⟩
  rw [State.withOffset, zero_append_eq_setWidth]
  split <;> rfl

/-- The words of an offset in range are its nanoseconds and its seconds modulo 2^32 (rules R138, R139). -/
theorem withOffset_toNat {tv : TV} (h : NsInRange tv) (s : State) :
    ((s.withOffset (low32 tv.sec) (low32 tv.ns)).offNs.toNat : Int) = tv.ns ∧
    ((s.withOffset (low32 tv.sec) (low32 tv.ns)).offSec.toNat : Int) = tv.sec % 4294967296 := by
  refine ⟨toNat_ofInt_targetNs h.1 h.2, ?_⟩
  rw [State.withOffset, toNat_zero_append, low32, BitVec.toNat_ofInt]
  omega

/-- A clock `t` whose offset is the difference of a time value and the counter reads that time value, its seconds modulo
2^32 (rules R132, R174 (b)). -/
theorem State.cur_of_delta {s t : State} {target d : TV} (hctr : s.ctrNsfx < 1000000000 * 1048576)
    (htarget : NsInRange target) (hd : tvSub target s.rawTime = d) (hsec : t.ctrSec = s.ctrSec)
    (hnsfx : t.ctrNsfx = s.ctrNsfx) (hoffNs : (t.offNs.toNat : Int) = d.ns)
    (hoffSec : (t.offSec.toNat : Int) = d.sec % 4294967296) :
    (t.curNs : Int) = target.ns ∧ ((t.curSec.toNat : Int) - target.sec) % 4294967296 = 0 := by
  have hdelta : NsInRange d := hd ▸ tvNorm_nsInRange _
  have hdiff : tvTotal d = tvTotal target - tvTotal s.rawTime := hd ▸ tvTotal_tvSub ..
  have htotal := t.cur_total
  have hsum : t.nsSum = s.ctrNsfx / 1048576 + t.offNs.toNat := hnsfx ▸ rfl
  simp only [NsInRange, tvTotal, State.rawTime, Config.nsecPerSec] at htarget hdelta hdiff
  have hlt : t.curNs < 1000000000 := State.curNs_lt (hnsfx ▸ hctr) (by omega)
  rw [hsec, hsum] at htotal
  omega

/-- Settles O35: a second or more ahead the offset is the whole difference, which the clock adds to the counter; else it is
(0, 0). -/
theorem setTimeForwardReadsTheTarget : Obligations.SetTimeForwardReadsTheTarget := by
  unfold Obligations.SetTimeForwardReadsTheTarget
  rintro s t k c target rest ha hc hidle hfree hctr hsec0 hsec ⟨hns0, hns⟩ hs hrun
  have hrange : target.inTargetRange = true := inTargetRange_iff.mpr ⟨⟨hsec0, hsec⟩, hns0, hns⟩
  refine ⟨fun hahead => ?_, fun hnot => ?_⟩
  · obtain ⟨c', -, -, hend⟩ := stepN_setTime_delta hrange ha hc hidle hfree hctr (setTimeDelta_of_ahead hahead) hs
    cases hrun.symm.trans hend
    obtain ⟨hoffNs, hoffSec⟩ := withOffset_toNat (tvNorm_nsInRange _) s
    exact State.cur_of_delta hctr ⟨hns0, hns⟩ rfl rfl rfl hoffNs hoffSec
  · obtain ⟨c', -, -, hend⟩ := stepN_setTime_delta hrange ha hc hidle hfree hctr (setTimeDelta_of_not_ahead hnot) hs
    cases hrun.symm.trans hend
    exact State.cur_of_zero_offset (s := s.withOffset 0 0) hctr rfl rfl

/-! ### The fine path of `adjust_time` (rules R177, R178, R179) -/

/-- The increment of the fine path is the sum, of whichever sign `delta_ns` is (rule R177). -/
theorem fineIncrement_eq_add (nominal : Nat) (delta : Int) : fineIncrement nominal delta = nominal + delta := by
  unfold fineIncrement
  split <;> omega

/-- The fine path alone, from an idle caller with the guard free (rules R175, R177; log 4). -/
theorem stepN_fine {s : State} {k : Nat} {c : Ctx} {d : DWord} {rest : List Entry} (hfine : isCoarse d.toInt = false)
    (ha : s.attached = true) (hc : s.callers[k]? = some c) (hidle : c.op = .idle) (hfree : s.lock = none)
    (hs : s.schedule = issueOf (.caller k) (.adjTime d) :: .go k :: .go k :: rest) :
    stepN 3 s = some { s with
      schedule := rest
      actor := .caller k
      inc := low32 (fineIncrement s.params.nominal d.toInt)
      callers := s.callers.set k (c.ret .ok) } := by
  refine (stepN_cons (step_adjTime_free hs ha hc hidle hfree)).trans ?_
  refine (stepN_cons (step_go_wrIncrement (d := low32 (fineIncrement s.params.nominal d.toInt)) (by rfl) (by exact ha)
    (by exact getElem?_set_acting _ hc) ?_)).trans ?_
  · simp [Ctx.nextInstr, hfine]
  refine (stepN_cons (step_go_lockRel (by rfl) (by exact ha)
    (by exact getElem?_set_acting _ (getElem?_set_acting _ hc)) ?_ (by rfl))).trans ?_
  · simp [Ctx.nextInstr, Ctx.advance, hfine]
  · simp [stepN, Ctx.advance, Ctx.ret, hfine, hfree]

/-- Settles O37: `stepN_fine`, with the increment as the sum and `NOMINAL` in the statement's words. -/
theorem adjustTimeFineNudgesTheIncrement : Obligations.AdjustTimeFineNudgesTheIncrement := by
  unfold Obligations.AdjustTimeFineNudgesTheIncrement
  intro s k c delta rest ha hc hidle hfree hfine hs
  have hnot : isCoarse delta.toInt = false := decide_eq_false hfine.not_gt
  rw [stepN_fine hnot ha hc hidle hfree hs, fineIncrement_eq_add, Ctx.ret_idle .ok hidle]
  rfl

end Sys2Proof.Machine
end

section
/-! The pulse converter: the handler's count and its runs, the flags that a pulse, `enable` and the host set, and that the
callers and the handler do not disturb each other; the obligations of 44_pulse_converter.md. -/

namespace Sys2Proof.Machine

/-! ### The handler and the callers apart (rule R200) -/

/-- The converse of `exec_effect`: an instruction whose effect is possible answers that effect's state. -/
theorem Effect.exec_eq {i : Instr} {s t : State} (h : Effect s i t) : exec i s = .next t := by
  cases h with
  | read r => exact exec_readInstr r s
  | acknowledge d hih => exact congrArg _ (if_pos hih)
  | clearPend d hih => exact congrArg _ (if_neg hih)
  | getTime hact hidle | adjTime deltaNs hact hidle | adjFreq ppb hact hidle | enable req hact hidle =>
    exact State.hostOp_idle _ hact hidle
  | setTime target hrange hact hidle => exact (if_pos hrange).trans (State.hostOp_idle _ hact hidle)
  | enterHandler henabled => exact congrArg _ (if_pos henabled)
  | entryHeld hdisabled => exact congrArg _ (if_neg hdisabled)
  | acquire hact hnext => exact State.guardStep_next _ hact hnext
  | release hact hnext hheld => exact (State.guardStep_next _ hact hnext).trans (if_pos hheld)
  | commitOffset | stageSecLo | stageSecHi | writeInc | tick | pulse | register | deregister => rfl

/-- `s` with what the handler owns (rule R200) as it is in `t`. -/
def State.withHandlerOf (t s : State) : State :=
  { s with pulseCount := t.pulseCount, intPend := t.intPend, ihState := t.ihState, events := t.events }

section WithHandlerOf

variable (t s : State)

theorem State.onActor_withHandlerOf (f : Ctx → Ctx) :
    (t.withHandlerOf s).onActor f = t.withHandlerOf (s.onActor f) := by
  simp only [State.onActor, State.withHandlerOf]
  split <;> rfl

theorem State.wrote_withHandlerOf (i : Instr) : (t.withHandlerOf s).wrote i = t.withHandlerOf (s.wrote i) :=
  State.onActor_withHandlerOf t s _

theorem State.acquire_withHandlerOf (k : Nat) : (t.withHandlerOf s).acquire k = t.withHandlerOf (s.acquire k) := by
  simp only [State.acquire, State.withHandlerOf]
  split <;> rfl

theorem State.startGuarded_withHandlerOf (k : Nat) (op : Op) :
    (t.withHandlerOf s).startGuarded k op = t.withHandlerOf (s.startGuarded k op) :=
  State.acquire_withHandlerOf t { s with callers := s.callers.modify k fun c => { c with op := op, sp := 0 } } k

/-- Of the registers INT_STATUS alone shows anything of the handler's (rule R116). -/
theorem State.regValue_withHandlerOf {r : Reg} (hr : r ≠ .intStatus) :
    (t.withHandlerOf s).regValue r = s.regValue r := by
  cases r with
  | intStatus => contradiction
  | _ => rfl

theorem State.regDraws_withHandlerOf (r : Reg) : (t.withHandlerOf s).regDraws r = s.regDraws r := by
  cases r <;> rfl

theorem State.busRead_withHandlerOf {r : Reg} (hr : r ≠ .intStatus) :
    (t.withHandlerOf s).busRead r = t.withHandlerOf (s.busRead r) := by
  rw [State.busRead, State.regValue_withHandlerOf t s hr, State.regDraws_withHandlerOf]
  exact State.onActor_withHandlerOf t (s.takeDraw _) _

end WithHandlerOf

section CallerStep

variable {i : Instr} {k : Nat} {s s' : State} (hhas : Agent.has (.caller k) i = true) (hwr : ∀ d, i ≠ .wrIntStatus d)
include hhas hwr

/-- A caller's step that is no access to INT_STATUS has the same effect beside another state of the handler. -/
theorem Effect.withHandlerOf (t : State) (h : Effect s i s') (hrd : i ≠ .rdIntStatus) :
    Effect (t.withHandlerOf s) i (t.withHandlerOf s') := by
  cases h with
  | read r =>
    have hr : r ≠ .intStatus := by rintro rfl; exact hrd rfl
    exact State.busRead_withHandlerOf t s hr ▸ .read r
  | commitOffset d => exact State.wrote_withHandlerOf t (s.commitOffset d) _ ▸ .commitOffset d
  | stageSecLo d => exact State.wrote_withHandlerOf t (s.stageSecLo d) _ ▸ .stageSecLo d
  | stageSecHi d => exact State.wrote_withHandlerOf t (s.stageSecHi d) _ ▸ .stageSecHi d
  | writeInc d => exact State.wrote_withHandlerOf t (s.writeInc d) _ ▸ .writeInc d
  | acknowledge d | clearPend d => exact absurd rfl (hwr d)
  | getTime hact hidle => exact State.startGuarded_withHandlerOf t s .. ▸ .getTime hact hidle
  | setTime target hrange hact hidle => exact State.startGuarded_withHandlerOf t s .. ▸ .setTime target hrange hact hidle
  | adjTime deltaNs hact hidle => exact State.startGuarded_withHandlerOf t s .. ▸ .adjTime deltaNs hact hidle
  | adjFreq ppb hact hidle => exact .adjFreq ppb hact hidle
  | enable req hact hidle => exact .enable req hact hidle
  | acquire hact hnext => exact State.acquire_withHandlerOf t s _ ▸ .acquire hact hnext
  | release hact hnext hheld => exact .release hact hnext hheld
  | tick | pulse | enterHandler | entryHeld | register | deregister => cases hhas

/-- A caller's step that is no write of INT_STATUS leaves what the handler owns as it was. -/
theorem Effect.keepsHandler (h : Effect s i s') :
    s'.pulseCount = s.pulseCount ∧ s'.intPend = s.intPend ∧ s'.ihState = s.ihState ∧ s'.events = s.events := by
  obtain ⟨hchanged, -, -⟩ := h.changedOnlyBy
  have hpulse : i ≠ .pulse := by rintro rfl; cases hhas
  have hentry : i ≠ .ihEntry := by rintro rfl; cases hhas
  obtain ⟨hcount, hevents⟩ := not_or.mp (mt hchanged.countAndEvents hentry)
  exact ⟨not_not.mp hcount, not_not.mp (mt hchanged.intPend (not_or.mpr ⟨hpulse, not_exists.mpr hwr⟩)),
    not_not.mp (mt hchanged.ihState (not_or.mpr ⟨hentry, not_exists.mpr hwr⟩)), not_not.mp hevents⟩

end CallerStep

/-- Settles O51: what a caller's step did, by `exec_effect`, it does beside the other handler too. -/
theorem callerStepsIgnoreTheHandler : Obligations.CallerStepsIgnoreTheHandler := by
  unfold Obligations.CallerStepsIgnoreTheHandler
  intro i k s t s' hhas hrd hwr ht h
  have heffect := exec_effect h
  obtain ⟨hcount, hpend, hih, hevents⟩ := heffect.keepsHandler hhas hwr
  exact ⟨hcount, hpend, hih, hevents, (congrArg (exec i) ht).trans (heffect.withHandlerOf hhas hwr t hrd).exec_eq⟩

/-! ### The pulse (rules R190, R191) -/

/-- Settles O42: the key decodes to the pulse, which raises the bit, and raised it stays as it is. -/
theorem pulseSetsPend : Obligations.PulseSetsPend := by
  unfold Obligations.PulseSetsPend
  refine ⟨rfl, fun s => ⟨rfl, fun hp => ?_, fun rest => step_pulse⟩⟩
  have hsame : s.raisePulse = s := by rw [State.raisePulse, ← hp]
  exact congrArg _ hsame

/-! ### The handler's entry and acknowledgment (rules R193, R194, R195) -/

theorem State.entryEnabled_iff {s : State} :
    s.entryEnabled = true ↔ s.intPend = true ∧ s.ihState = .idle ∧ s.attached = true := by
  simp [State.entryEnabled, State.irq, and_assoc]

theorem State.emitsPps_iff {s : State} : s.emitsPps = true ↔ s.ppsEnabled = true ∧ s.registered = true := by
  simp [State.emitsPps]

theorem State.enterHandler_below {s : State} (h : s.pulseCount + 1 < Config.pulsesPerSecond) :
    s.enterHandler = { s with pulseCount := s.pulseCount + 1, ihState := .entered } :=
  if_neg (Nat.not_le.mpr h)

theorem State.enterHandler_wrap {s : State} (h : Config.pulsesPerSecond ≤ s.pulseCount + 1) :
    s.enterHandler = { s with
      pulseCount := 0
      events := s.events ++ (if s.emitsPps = true then [.pps] else [])
      ihState := .entered } := by
  rw [State.enterHandler, if_pos h]
  split <;> simp

/-- With the acting handler the write of INT_STATUS is its acknowledgment (rule R194). -/
theorem exec_wrIntStatus_handler {s : State} (d : Word) (h : s.actor = .ih) :
    exec (.wrIntStatus d) s = .next (s.ackHandler d) :=
  congrArg _ (if_pos h)

theorem State.ackHandler_idle {s : State} (d : Word) (h : s.ihState = .idle) : s.ackHandler d = s := by
  rw [State.ackHandler, h]

theorem State.ackHandler_entered {s : State} (h : s.ihState = .entered) :
    s.ackHandler 1 = { s with intPend := false, ihState := .idle } := by
  simp [State.ackHandler, State.clearPend, h]

/-- Settles O43: the three tests of the entry decide whether it is `enterHandler` or a hold; an idle handler has nothing to
acknowledge. -/
theorem handlerEntryCounts : Obligations.HandlerEntryCounts := by
  unfold Obligations.HandlerEntryCounts
  refine fun s => ⟨fun hp hi ha => ?_, fun hno => ?_, fun hih hi => ?_⟩
  · have hentry : exec .ihEntry s = .next s.enterHandler := congrArg _ (if_pos (State.entryEnabled_iff.mpr ⟨hp, hi, ha⟩))
    refine ⟨fun hbelow => ?_, fun hwrap => ?_⟩
    · rw [hentry, State.enterHandler_below hbelow]
    · rw [hentry, State.enterHandler_wrap hwrap]
      simp only [State.emitsPps_iff]
  · have hdisabled : ¬ s.entryEnabled = true := by
      rw [State.entryEnabled_iff]
      rintro ⟨hp, hi, ha⟩
      simp [hp, hi, ha] at hno
    exact congrArg _ (if_neg hdisabled)
  · rw [exec_wrIntStatus_handler 1 hih, State.ackHandler_idle 1 hi]

/-- Settles O44: the key decodes to the write of 1, which by the entered handler is the acknowledgment. -/
theorem handlerAcknowledges : Obligations.HandlerAcknowledges := by
  unfold Obligations.HandlerAcknowledges
  refine ⟨rfl, fun s hih hentered => ?_⟩
  rw [exec_wrIntStatus_handler 1 hih, State.ackHandler_entered hentered]

/-! ### Runs of handler services (rules R195, R198, R199)

In a chain of steps the facts about a step's state are tactic blocks, which are elaborated once that state is known. -/

/-- `s` with `n` more entries counted: the count modulo 128, and an event for each wrap if the handler emits (rules R193,
R198). -/
def State.counted (n : Nat) (s : State) : State :=
  { s with
    pulseCount := (s.pulseCount + n) % Config.pulsesPerSecond
    events := s.events ++
      List.replicate (if s.emitsPps = true then (s.pulseCount + n) / Config.pulsesPerSecond else 0) .pps }

theorem State.counted_zero {s : State} (h : s.pulseCount < Config.pulsesPerSecond) : s.counted 0 = s := by
  simp [State.counted, Nat.mod_eq_of_lt h, Nat.div_eq_of_lt h]

/-- Entries counted in two runs are counted as in one: the remainder of the first carries over into the second. -/
theorem State.counted_counted (m n : Nat) (s : State) : (s.counted m).counted n = s.counted (m + n) := by
  have hcount : ((s.pulseCount + m) % 128 + n) % 128 = (s.pulseCount + (m + n)) % 128 := by omega
  have hwraps : (s.pulseCount + m) / 128 + ((s.pulseCount + m) % 128 + n) / 128 = (s.pulseCount + (m + n)) / 128 := by
    omega
  have hemits : (s.counted m).emitsPps = s.emitsPps := rfl
  rw [State.counted, hemits]
  cases he : s.emitsPps <;> simp [State.counted, Config.pulsesPerSecond, he, hcount, ← hwraps]

/-- The handler's entry counts one (rule R193). -/
theorem State.enterHandler_eq_counted {s : State} (h : s.pulseCount < Config.pulsesPerSecond) :
    s.enterHandler = { s.counted 1 with ihState := .entered } := by
  rcases Nat.lt_or_ge (s.pulseCount + 1) Config.pulsesPerSecond with hbelow | hwrap
  · rw [State.enterHandler_below hbelow]
    simp [State.counted, Nat.mod_eq_of_lt hbelow, Nat.div_eq_of_lt hbelow]
  · have hlast : s.pulseCount + 1 = Config.pulsesPerSecond := Nat.le_antisymm h hwrap
    rw [State.enterHandler_wrap hwrap]
    cases he : s.emitsPps <;> simp [State.counted, he, hlast]

/-- One complete service of an idle, attached handler counts one and leaves nothing pending. -/
theorem stepN_serviceRound {s : State} {rest : List Entry} (hcount : s.pulseCount < Config.pulsesPerSecond)
    (hidle : s.ihState = .idle) (ha : s.attached = true) (hs : s.schedule = serviceRound ++ rest) :
    stepN 3 s = some { s.counted 1 with intPend := false, schedule := rest, actor := .ih } := by
  refine (stepN_cons (step_pulse hs)).trans ?_
  refine (stepN_cons (step_ihEntry (by rfl) (by rfl) (by exact hidle) (by exact ha))).trans ?_
  rw [State.enterHandler_eq_counted (by exact hcount)]
  refine (stepN_cons (step_ihAck (by rfl) (by rfl) (by exact ha))).trans ?_
  simp [stepN, State.counted, State.emitsPps, hidle]

/-- `k` complete services count `k`, by induction on `k`. -/
theorem stepN_serviceRounds {s : State} {k : Nat} {rest : List Entry} (hcount : s.pulseCount < Config.pulsesPerSecond)
    (hidle : s.ihState = .idle) (ha : s.attached = true) (hs : s.schedule = serviceRounds k ++ rest) :
    ∃ a, stepN (3 * k) s = some { s.counted k with
      intPend := if k = 0 then s.intPend else false, schedule := rest, actor := a } := by
  induction k generalizing s with
  | zero =>
    refine ⟨s.actor, ?_⟩
    rw [State.counted_zero hcount]
    exact congrArg some (by rw [if_pos rfl, show rest = s.schedule from hs.symm])
  | succ k ih =>
    have hround := stepN_serviceRound hcount hidle ha (hs.trans (List.append_assoc serviceRound _ rest))
    obtain ⟨a, hrun⟩ := ih (s := { s.counted 1 with intPend := false, schedule := serviceRounds k ++ rest, actor := .ih })
      (Nat.mod_lt _ (by decide)) hidle ha rfl
    refine ⟨a, ?_⟩
    rw [show 3 * (k + 1) = 3 + 3 * k by omega, stepN_add hround, hrun, ← Nat.add_comm 1 k, ← State.counted_counted]
    simp [State.counted, State.emitsPps]

/-- Settles O45: `stepN_serviceRounds`, with the emission's test in the statement's words. -/
theorem servicesEmitOneEventPer128 : Obligations.ServicesEmitOneEventPer128 := by
  unfold Obligations.ServicesEmitOneEventPer128
  intro s k rest hcount hidle ha hs
  obtain ⟨a, hrun⟩ := stepN_serviceRounds hcount hidle ha hs
  exact ⟨_, hrun, by simp only [State.counted, State.emitsPps_iff]⟩

/-- Settles O46: the second pulse finds the bit set, and the acknowledgment clears the third's. -/
theorem pulsesAreLost : Obligations.PulsesAreLost := by
  unfold Obligations.PulsesAreLost
  intro s rest hidle ha hbelow hs
  refine (stepN_cons (step_pulse hs)).trans ?_
  refine (stepN_cons (step_pulse (by rfl))).trans ?_
  refine (stepN_cons (step_ihEntry (by rfl) (by rfl) (by exact hidle) (by exact ha))).trans ?_
  rw [State.enterHandler_below (by exact hbelow)]
  refine (stepN_cons (step_pulse (by rfl))).trans ?_
  refine (stepN_cons (step_ihAck (by rfl) (by rfl) (by exact ha))).trans ?_
  simp [stepN, hidle]

/-! ### Enable control and registration (rules R196, R197) -/

/-- An idle caller's `enable` sets the flag for the PPS kind alone and returns its result. -/
theorem exec_enable_idle {s : State} {k : Nat} {c : Ctx} (req : Nat) (h : s.Acting k c) (hidle : c.op = .idle) :
    exec (.enable req) s = .next { s with
      ppsEnabled := s.ppsEnabled || req == s.params.kindPps
      callers := s.callers.set k { c with
        sp := 0, result := some (if req = s.params.kindPps then .ok else .unsupported) } } := by
  rw [← Ctx.ret_idle _ hidle]
  exact (State.hostOp_idle _ h hidle).trans (congrArg _ (State.returnTo_caller (s := s.enablePps req) _ h.2))

/-- Settles O47: `exec_enable_idle` for the PPS kind and for any other. -/
theorem enableSetsPpsOnly : Obligations.EnableSetsPpsOnly := by
  unfold Obligations.EnableSetsPpsOnly
  intro s k c req hact hidle
  rw [exec_enable_idle req hact hidle]
  exact ⟨fun hpps => by simp [hpps], fun hother => by simp [hother]⟩

/-- Settles O48: while the core is attached the host has its two steps, whatever else the state is. -/
theorem hostRegistersAtAnyTime : Obligations.HostRegistersAtAnyTime := by
  unfold Obligations.HostRegistersAtAnyTime
  exact fun s rest => ⟨⟨rfl, rfl⟩, fun ha =>
    ⟨fun hs => step_issue hs (i := .register) (tail := []) rfl rfl rfl (.inl ha) rfl,
      fun hs => step_issue hs (i := .deregister) (tail := []) rfl rfl rfl (.inl ha) rfl⟩⟩

end Sys2Proof.Machine
end
